-- ==== Sys2Proof/Word.lean ====
section
/-!
DEFINITION. The machine's words: the 8-bit value of every register, memory cell, address and the instruction pointer
(spec/00_scope.md R5, R7), the 16-bit instruction word (R6), and the names of the four general registers
(spec/10_state.md R20).
-/

namespace Sys2Proof

/-- An 8-bit value: XLEN, CELL, ALEN, PCLEN and IMMLEN are all 8 (00_scope.md R5). Its `+` and `-` are the `+8` and `-8`
of 00_scope.md R7: they wrap modulo 256. -/
abbrev Byte := BitVec 8

/-- An instruction word `instr`, ILEN = 16 bits, `instr[15]` the most significant (00_scope.md R5, R6). -/
abbrev InstrWord := BitVec 16

/-- The four general registers; all alike, none hard-wired (10_state.md R20, R21). -/
inductive Reg where
  | ra
  | rb
  | rc
  | rd
  deriving DecidableEq, Repr

end Sys2Proof
end

