-- ==== Sys2Proof/Config.lean ====
section
/-!
DEFINITION. What an implementation fixes and what the spec leaves open: the parameters of spec/00_scope.md R5 with the
values the spec decides, and the free values of spec/10_state.md R32 and R33 and spec/45_external_interface.md R173, each
a constant WITHOUT A BODY, so that nothing can be proved of its value.
-/

namespace Sys2Proof

/-- Which of an instruction's two bytes lies at the lower address (parameter INSTR_BYTE_ORDER, 20_memory.md R42). -/
inductive ByteOrder where
  | highFirst
  | lowFirst
  deriving DecidableEq, Repr

/-- Which instructions write ZF, SF and CF (parameter FLAGS_WRITERS, 10_state.md R25, 92_eei_decisions.md D6). -/
inductive FlagsWriters where
  /-- `cmp` alone. -/
  | cmpOnly
  /-- D6's safe alternative: after every other ALU instruction the flags are a draw. -/
  | everyAlu
  deriving DecidableEq, Repr

/-- What a reserved encoding does (parameter RESERVED_TREATMENT, 92_eei_decisions.md D11). The spec decides `refuse` and says
that it is "not to be changed without evidence from the hardware"; the other two are the guesses D11 names, given so that a
claim can range over them (log 10, DESIGN CHOICE). -/
inductive ReservedTreatment where
  | refuse
  | noOperation
  | halt
  deriving DecidableEq, Repr

/-- The parameters a claim may name or quantify over (00_scope.md R5; 92_eei_decisions.md, "Points deliberately left OPEN as
parameters"); each field's default is the value the spec decides. What the machine does at another value is log 21. -/
structure Params where
  /-- ALEN, the width of a memory address (decision D1). -/
  alen : Nat := 8
  /-- MEM_CELLS, the number of memory cells (20_memory.md R41, decision D1). -/
  memCells : Nat := 256
  /-- CELL, the width of a memory cell (decision D1). -/
  cell : Nat := 8
  /-- PCLEN, the width of the instruction pointer (10_state.md R22, decision D3). -/
  pclen : Nat := 8
  /-- PC_STEP, what a non-jumping instruction adds to the instruction pointer (10_state.md R23, decision D3). -/
  pcStep : Byte := 2
  /-- INSTR_BYTE_ORDER (20_memory.md R42, decision D2). -/
  instrByteOrder : ByteOrder := .highFirst
  /-- RESET_PC (70_reset_and_hazards.md R200, decision D5). -/
  resetPc : Byte := 0x00
  /-- FLAGS_WRITERS (10_state.md R25, decision D6). -/
  flagsWriters : FlagsWriters := .cmpOnly
  /-- JC_JNC_IMPLEMENTED (44_jumps.md R142, decision D14). -/
  jcJncImplemented : Bool := true
  /-- RESERVED_TREATMENT (30_encoding.md R75, decision D11). -/
  reservedTreatment : ReservedTreatment := .refuse
  /-- CYCLES_PER_INSTRUCTION: recorded, TIMING ONLY, and read by nothing (70_reset_and_hazards.md R208, decision D26). -/
  cyclesPerInstruction : Nat := 3
  /-- The number of processors (decision D25). -/
  processors : Nat := 1
  /-- The number of privilege modes (decision D16). -/
  privilegeModes : Nat := 1
  /-- The cells that are not writable: none, since the writable cells are all 256 (20_memory.md R48, decision D19). -/
  readOnlyCells : List Byte := []
  deriving DecidableEq, Repr

namespace Config

/-- The parameters at the values the spec decides. -/
def decided : Params := { }

/-- FREE VALUE. What a general register holds after reset: "unspecified" (10_state.md R32, R33; log 1, DESIGN CHOICE). -/
opaque resetReg : Reg → Byte

/-- FREE VALUE. ZF after reset (10_state.md R32, R33; log 2, DESIGN CHOICE). -/
opaque resetZf : Bool

/-- FREE VALUE. SF after reset (10_state.md R32, R33; log 2, DESIGN CHOICE). -/
opaque resetSf : Bool

/-- FREE VALUE. CF after reset (10_state.md R32, R33; log 2, DESIGN CHOICE). -/
opaque resetCf : Bool

/-- FREE VALUE. OUT_PORT after reset (10_state.md R32; log 3, DESIGN CHOICE). -/
opaque resetOutPort : Byte

/-- FREE VALUE. What the memory cell at an address holds when neither the loaded image gave it a value nor an instruction
wrote it (10_state.md R32, R33; log 4, DESIGN CHOICE). -/
opaque unloadedCell : Byte → Byte

/-- FREE VALUE. The value the environment supplies to the `k`-th `in` (10_state.md R29, 45_external_interface.md R173; log
5, DESIGN CHOICE). -/
opaque inputByte : Nat → Byte

/-- FREE VALUE. ZF after the `k`-th ALU instruction whose flags are a draw; drawn only where FLAGS_WRITERS is not `cmp` alone
(92_eei_decisions.md D6; log 11, DESIGN CHOICE). -/
opaque drawnZf : Nat → Bool

/-- FREE VALUE. SF at the same draw (92_eei_decisions.md D6; log 11, DESIGN CHOICE). -/
opaque drawnSf : Nat → Bool

/-- FREE VALUE. CF at the same draw (92_eei_decisions.md D6; log 11, DESIGN CHOICE). -/
opaque drawnCf : Nat → Bool

end Config

end Sys2Proof
end

