-- ==== Sys2Proof/Syntax.lean ====
section
/-!
DEFINITION. The instruction set as syntax: one constructor for each of the 44 forms of spec/30_encoding.md R68 and of
spec/opcode_table.json, in the table's order. A register operand is a `Reg`, an immediate is the 8-bit field itself
(R65: never extended), so no ill-formed operand can be written.
-/

namespace Sys2Proof

/-- The 44 instruction forms (30_encoding.md R68). `rn` is the register of dreg, `rm` the register of the src field; for the
jumps and `out` the one register is that of the src field (44_jumps.md R140, 45_external_interface.md R171). -/
inductive Instr where
  /-- `mov rn, rm` (40_move.md R101). -/
  | movRegReg (rn rm : Reg)
  /-- `mov rn, i` (40_move.md R102). -/
  | movRegImm (rn : Reg) (i : Byte)
  /-- `mov rn, [rm]` (40_move.md R103). -/
  | movRegMemReg (rn rm : Reg)
  /-- `mov rn, [i]` (40_move.md R104). -/
  | movRegMemImm (rn : Reg) (i : Byte)
  /-- `mov [rn], rm` (40_move.md R105). -/
  | movMemRegReg (rn rm : Reg)
  /-- `mov [rn], i` (40_move.md R106). -/
  | movMemRegImm (rn : Reg) (i : Byte)
  /-- `add rn, rm` (41_alu_two_operand.md R111). -/
  | addReg (rn rm : Reg)
  /-- `add rn, i` (41_alu_two_operand.md R112). -/
  | addImm (rn : Reg) (i : Byte)
  /-- `sub rn, rm` (41_alu_two_operand.md R113). -/
  | subReg (rn rm : Reg)
  /-- `sub rn, i` (41_alu_two_operand.md R114). -/
  | subImm (rn : Reg) (i : Byte)
  /-- `and rn, rm` (41_alu_two_operand.md R115). -/
  | andReg (rn rm : Reg)
  /-- `and rn, i` (41_alu_two_operand.md R116). -/
  | andImm (rn : Reg) (i : Byte)
  /-- `or rn, rm` (41_alu_two_operand.md R117). -/
  | orReg (rn rm : Reg)
  /-- `or rn, i` (41_alu_two_operand.md R118). -/
  | orImm (rn : Reg) (i : Byte)
  /-- `xor rn, rm` (41_alu_two_operand.md R119). -/
  | xorReg (rn rm : Reg)
  /-- `xor rn, i` (41_alu_two_operand.md R120). -/
  | xorImm (rn : Reg) (i : Byte)
  /-- `cmp rn, rm` (42_compare.md R126). -/
  | cmpReg (rn rm : Reg)
  /-- `cmp rn, i` (42_compare.md R127). -/
  | cmpImm (rn : Reg) (i : Byte)
  /-- `not r` (43_alu_one_operand.md R131). -/
  | notReg (r : Reg)
  /-- `shr r` (43_alu_one_operand.md R132). -/
  | shrReg (r : Reg)
  /-- `ror r` (43_alu_one_operand.md R133). -/
  | rorReg (r : Reg)
  /-- `asr r` (43_alu_one_operand.md R134). -/
  | asrReg (r : Reg)
  /-- `rol r` (43_alu_one_operand.md R135). -/
  | rolReg (r : Reg)
  /-- `jmp rn` (44_jumps.md R144). -/
  | jmpReg (rn : Reg)
  /-- `jmp i` (44_jumps.md R145). -/
  | jmpImm (i : Byte)
  /-- `je rn` / `jz rn` (44_jumps.md R146). -/
  | jeReg (rn : Reg)
  /-- `je i` / `jz i` (44_jumps.md R147). -/
  | jeImm (i : Byte)
  /-- `jne rn` / `jnz rn` (44_jumps.md R148). -/
  | jneReg (rn : Reg)
  /-- `jne i` / `jnz i` (44_jumps.md R149). -/
  | jneImm (i : Byte)
  /-- `ja rn` (44_jumps.md R150). -/
  | jaReg (rn : Reg)
  /-- `ja i` (44_jumps.md R151). -/
  | jaImm (i : Byte)
  /-- `jae rn` (44_jumps.md R152). -/
  | jaeReg (rn : Reg)
  /-- `jae i` (44_jumps.md R153). -/
  | jaeImm (i : Byte)
  /-- `jbe rn` (44_jumps.md R154). -/
  | jbeReg (rn : Reg)
  /-- `jbe i` (44_jumps.md R155). -/
  | jbeImm (i : Byte)
  /-- `jb rn` (44_jumps.md R156). -/
  | jbReg (rn : Reg)
  /-- `jb i` (44_jumps.md R157). -/
  | jbImm (i : Byte)
  /-- `jc rn` (44_jumps.md R158). -/
  | jcReg (rn : Reg)
  /-- `jc i` (44_jumps.md R159). -/
  | jcImm (i : Byte)
  /-- `jnc rn` (44_jumps.md R160). -/
  | jncReg (rn : Reg)
  /-- `jnc i` (44_jumps.md R161). -/
  | jncImm (i : Byte)
  /-- `out rn` (45_external_interface.md R171). -/
  | outReg (rn : Reg)
  /-- `out i` (45_external_interface.md R172). -/
  | outImm (i : Byte)
  /-- `in rn` (45_external_interface.md R173). -/
  | inReg (rn : Reg)
  deriving DecidableEq, Repr

end Sys2Proof
end

