-- ==== Sys2Proof/Decode.lean ====
section
/-!
DEFINITION. The decoder (spec/30_encoding.md R60 to R77), total on all 65536 words and rejecting by name; after it the
encoder, written from the encoding formats R62 and R69 to R73, and the opcode map R68 as data.

Decoding depends on the high byte `instr[15:8]` alone and the low byte only supplies operands (R67), so the decoder takes
the two bytes: bit `k` of `instr` is bit `k - 8` of the high byte for `k` from 8 up, and bit `k` of the low byte below.
-/

namespace Sys2Proof

/-- Why a word is reserved: the groups of the table in 30_encoding.md R74, each row's "what it would be". -/
inductive ReservedKind where
  /-- Opcode 000 with dd#m = 1 and sd#m = 1 (decision D21). -/
  | memoryToMemory
  /-- Opcode 010 with ALU op 10 or 11. -/
  | aluOp
  /-- Opcode 011 with ALU op 101, 110 or 111. -/
  | oneOperandOp
  /-- Opcode 100, which no table uses. -/
  | opcode100
  /-- Opcode 101 with one of the seven unlisted jump types (decision D22). -/
  | jumpType
  /-- `jc` or `jnc` when JC_JNC_IMPLEMENTED is false (44_jumps.md R142). -/
  | carryJump
  /-- Opcode 110 with IO type 10 or 11. -/
  | ioType
  /-- Opcode 111, which no table uses. -/
  | opcode111
  deriving DecidableEq, Repr

/-! ### Fields (R61 to R64) -/

/-- The 2-bit code of a register (10_state.md R20). -/
def Reg.code : Reg → BitVec 2
  | .ra => 0b00#2
  | .rb => 0b01#2
  | .rc => 0b10#2
  | .rd => 0b11#2

/-- The register a 2-bit code names; all four codes are legal (R63). -/
def Reg.ofCode (c : BitVec 2) : Reg :=
  match c.toNat with
  | 0 => .ra
  | 1 => .rb
  | 2 => .rc
  | _ => .rd

/-- `instr[15:8]`. -/
def highByte (w : InstrWord) : Byte := w.extractLsb' 8 8

/-- `instr[7:0]`. -/
def lowByte (w : InstrWord) : Byte := w.extractLsb' 0 8

/-- The opcode `instr[15:13]` (R61). -/
def opcodeField (hi : Byte) : Nat := (hi.extractLsb' 5 3).toNat

/-- The I/R-bar bit `instr[12]` (R64). -/
def immediateBit (hi : Byte) : Bool := hi.getLsbD 4

/-- `instr[11:10]`: dd#m and sd#m of a move, the ALU op of format A2, the IO type (R62). -/
def opField (hi : Byte) : Nat := (hi.extractLsb' 2 2).toNat

/-- The 3-bit ALU op `instr[12:10]` of format A1 (R62, 90_conflicts.md C11). -/
def oneOperandField (hi : Byte) : Nat := (hi.extractLsb' 2 3).toNat

/-- The Jump type `instr[11:8]` (R62). -/
def jumpTypeField (hi : Byte) : Nat := (hi.extractLsb' 0 4).toNat

/-- dreg, `instr[9:8]` (R63). -/
def dregField (hi : Byte) : Reg := Reg.ofCode (hi.extractLsb' 0 2)

/-- The register of the src field, `instr[1:0]`; bits 7:2 are ignored (R63, R66). -/
def srcField (lo : Byte) : Reg := Reg.ofCode (lo.extractLsb' 0 2)

/-! ### The decoder (R67) -/

/-- The I/R-bar bit chooses between the immediate and the register form (R64, R65). -/
def sourceForm (hi lo : Byte) (reg : Reg → Instr) (imm : Byte → Instr) : Instr :=
  match immediateBit hi with
  | true => imm lo
  | false => reg (srcField lo)

/-- Opcode 000 (R69): `instr[11:10]` is dd#m, sd#m; both set is reserved. -/
def decodeMove (hi lo : Byte) : Except ReservedKind Instr :=
  match opField hi with
  | 0 => .ok (sourceForm hi lo (.movRegReg (dregField hi)) (.movRegImm (dregField hi)))
  | 1 => .ok (sourceForm hi lo (.movRegMemReg (dregField hi)) (.movRegMemImm (dregField hi)))
  | 2 => .ok (sourceForm hi lo (.movMemRegReg (dregField hi)) (.movMemRegImm (dregField hi)))
  | _ => .error .memoryToMemory

/-- Opcode 001 (R70). -/
def decodeFirstAlu (hi lo : Byte) : Except ReservedKind Instr :=
  match opField hi with
  | 0 => .ok (sourceForm hi lo (.addReg (dregField hi)) (.addImm (dregField hi)))
  | 1 => .ok (sourceForm hi lo (.subReg (dregField hi)) (.subImm (dregField hi)))
  | 2 => .ok (sourceForm hi lo (.andReg (dregField hi)) (.andImm (dregField hi)))
  | _ => .ok (sourceForm hi lo (.orReg (dregField hi)) (.orImm (dregField hi)))

/-- Opcode 010 (R70): ALU op 10 and 11 are reserved. -/
def decodeSecondAlu (hi lo : Byte) : Except ReservedKind Instr :=
  match opField hi with
  | 0 => .ok (sourceForm hi lo (.xorReg (dregField hi)) (.xorImm (dregField hi)))
  | 1 => .ok (sourceForm hi lo (.cmpReg (dregField hi)) (.cmpImm (dregField hi)))
  | _ => .error .aluOp

/-- Opcode 011 (R71): the low byte is ignored. -/
def decodeOneOperand (hi : Byte) : Except ReservedKind Instr :=
  match oneOperandField hi with
  | 0 => .ok (.notReg (dregField hi))
  | 1 => .ok (.shrReg (dregField hi))
  | 2 => .ok (.rorReg (dregField hi))
  | 3 => .ok (.asrReg (dregField hi))
  | 4 => .ok (.rolReg (dregField hi))
  | _ => .error .oneOperandOp

/-- A form of `jc` or `jnc`, which the parameter JC_JNC_IMPLEMENTED may make reserved (44_jumps.md R142). -/
def carryJumpForm (p : Params) (i : Instr) : Except ReservedKind Instr :=
  if p.jcJncImplemented then .ok i else .error .carryJump

/-- Opcode 101 (R72): the seven unlisted jump types are reserved. -/
def decodeJump (p : Params) (hi lo : Byte) : Except ReservedKind Instr :=
  match jumpTypeField hi with
  | 0b0000 => .ok (sourceForm hi lo .jmpReg .jmpImm)
  | 0b0001 => .ok (sourceForm hi lo .jeReg .jeImm)
  | 0b1001 => .ok (sourceForm hi lo .jneReg .jneImm)
  | 0b0010 => .ok (sourceForm hi lo .jaReg .jaImm)
  | 0b0011 => .ok (sourceForm hi lo .jaeReg .jaeImm)
  | 0b1010 => .ok (sourceForm hi lo .jbeReg .jbeImm)
  | 0b1011 => .ok (sourceForm hi lo .jbReg .jbImm)
  | 0b0100 => carryJumpForm p (sourceForm hi lo .jcReg .jcImm)
  | 0b1100 => carryJumpForm p (sourceForm hi lo .jncReg .jncImm)
  | _ => .error .jumpType

/-- Opcode 110 (R73): `out` ignores dreg, `in` ignores I/R-bar and src; IO types 10 and 11 are reserved. -/
def decodeIo (hi lo : Byte) : Except ReservedKind Instr :=
  match opField hi with
  | 0 => .ok (sourceForm hi lo .outReg .outImm)
  | 1 => .ok (.inReg (dregField hi))
  | _ => .error .ioType

/-- The decode procedure (R67) on `instr[15:8]` and `instr[7:0]`, for every value of both. -/
def decodeBytes (p : Params) (hi lo : Byte) : Except ReservedKind Instr :=
  match opcodeField hi with
  | 0b000 => decodeMove hi lo
  | 0b001 => decodeFirstAlu hi lo
  | 0b010 => decodeSecondAlu hi lo
  | 0b011 => decodeOneOperand hi
  | 0b100 => .error .opcode100
  | 0b101 => decodeJump p hi lo
  | 0b110 => decodeIo hi lo
  | _ => .error .opcode111

/-- The decoder on an instruction word, under given parameters (R67). -/
def decodeWith (p : Params) (w : InstrWord) : Except ReservedKind Instr := decodeBytes p (highByte w) (lowByte w)

/-- The decoder on an instruction word, with the parameters the spec decides. -/
def decode (w : InstrWord) : Except ReservedKind Instr := decodeWith Config.decided w

/-! ### The two bytes in memory (20_memory.md R42) -/

/-- The instruction word that two consecutive bytes hold, the byte at the lower address given first (R42). -/
def wordOfBytes (o : ByteOrder) (first second : Byte) : InstrWord :=
  match o with
  | .highFirst => first ++ second
  | .lowFirst => second ++ first

/-- The byte of an instruction word at the lower address (R42). -/
def firstByte (o : ByteOrder) (w : InstrWord) : Byte :=
  match o with
  | .highFirst => highByte w
  | .lowFirst => lowByte w

/-- The byte of an instruction word at the higher address (R42). -/
def secondByte (o : ByteOrder) (w : InstrWord) : Byte :=
  match o with
  | .highFirst => lowByte w
  | .lowFirst => highByte w

/-- The instruction word of an opcode-table row whose `nbits` bits are `w`, the bits above them zero (log 22). -/
def tableWord (nbits w : Nat) : InstrWord := BitVec.ofNat 16 (w % 2 ^ nbits)

/-- What the decoder reads from the bytes that hold the instruction whose bits are `w`, numbered as the opcode table
numbers them; `none` where it refuses. -/
def decodeTableWord (nbits w : Nat) : Option Instr :=
  let o := Config.decided.instrByteOrder
  match decode (wordOfBytes o (firstByte o (tableWord nbits w)) (secondByte o (tableWord nbits w))) with
  | .ok i => some i
  | .error _ => none

/-! ### The encoder: canonical words, every don't-care bit 0 (R83) -/

/-- High byte of format M: opcode 000, I/R-bar, dd#m, sd#m, dreg (R62). -/
def formatM (imm ddm sdm : BitVec 1) (d : Reg) : Byte := 0b000#3 ++ imm ++ ddm ++ sdm ++ d.code

/-- High byte of format A2: opcode, I/R-bar, ALU op, dreg (R62). -/
def formatA2 (opcode : BitVec 3) (imm : BitVec 1) (op : BitVec 2) (d : Reg) : Byte := opcode ++ imm ++ op ++ d.code

/-- High byte of format A1: opcode 011, ALU op, dreg (R62). -/
def formatA1 (op : BitVec 3) (d : Reg) : Byte := 0b011#3 ++ op ++ d.code

/-- High byte of format J: opcode 101, I/R-bar, Jump type (R62). -/
def formatJ (imm : BitVec 1) (jumpType : BitVec 4) : Byte := 0b101#3 ++ imm ++ jumpType

/-- High byte of format IO: opcode 110, I/R-bar, IO type, dreg code (R62). -/
def formatIo (imm : BitVec 1) (ioType : BitVec 2) (d : BitVec 2) : Byte := 0b110#3 ++ imm ++ ioType ++ d

/-- The low byte of a register source: bits 7:2 zero, the code in bits 1:0 (R63, R83). -/
def srcByte (r : Reg) : Byte := 0b000000#6 ++ r.code

/-- `instr[15:8]` of an instruction (R69 to R73, R83). -/
def encodeHigh : Instr → Byte
  | .movRegReg rn _ => formatM 0 0 0 rn
  | .movRegImm rn _ => formatM 1 0 0 rn
  | .movRegMemReg rn _ => formatM 0 0 1 rn
  | .movRegMemImm rn _ => formatM 1 0 1 rn
  | .movMemRegReg rn _ => formatM 0 1 0 rn
  | .movMemRegImm rn _ => formatM 1 1 0 rn
  | .addReg rn _ => formatA2 0b001 0 0b00 rn
  | .addImm rn _ => formatA2 0b001 1 0b00 rn
  | .subReg rn _ => formatA2 0b001 0 0b01 rn
  | .subImm rn _ => formatA2 0b001 1 0b01 rn
  | .andReg rn _ => formatA2 0b001 0 0b10 rn
  | .andImm rn _ => formatA2 0b001 1 0b10 rn
  | .orReg rn _ => formatA2 0b001 0 0b11 rn
  | .orImm rn _ => formatA2 0b001 1 0b11 rn
  | .xorReg rn _ => formatA2 0b010 0 0b00 rn
  | .xorImm rn _ => formatA2 0b010 1 0b00 rn
  | .cmpReg rn _ => formatA2 0b010 0 0b01 rn
  | .cmpImm rn _ => formatA2 0b010 1 0b01 rn
  | .notReg r => formatA1 0b000 r
  | .shrReg r => formatA1 0b001 r
  | .rorReg r => formatA1 0b010 r
  | .asrReg r => formatA1 0b011 r
  | .rolReg r => formatA1 0b100 r
  | .jmpReg _ => formatJ 0 0b0000
  | .jmpImm _ => formatJ 1 0b0000
  | .jeReg _ => formatJ 0 0b0001
  | .jeImm _ => formatJ 1 0b0001
  | .jneReg _ => formatJ 0 0b1001
  | .jneImm _ => formatJ 1 0b1001
  | .jaReg _ => formatJ 0 0b0010
  | .jaImm _ => formatJ 1 0b0010
  | .jaeReg _ => formatJ 0 0b0011
  | .jaeImm _ => formatJ 1 0b0011
  | .jbeReg _ => formatJ 0 0b1010
  | .jbeImm _ => formatJ 1 0b1010
  | .jbReg _ => formatJ 0 0b1011
  | .jbImm _ => formatJ 1 0b1011
  | .jcReg _ => formatJ 0 0b0100
  | .jcImm _ => formatJ 1 0b0100
  | .jncReg _ => formatJ 0 0b1100
  | .jncImm _ => formatJ 1 0b1100
  | .outReg _ => formatIo 0 0b00 0b00
  | .outImm _ => formatIo 1 0b00 0b00
  | .inReg rn => formatIo 0 0b01 rn.code

/-- `instr[7:0]` of an instruction (R69 to R73, R83). -/
def encodeLow : Instr → Byte
  | .movRegReg _ rm => srcByte rm
  | .movRegImm _ i => i
  | .movRegMemReg _ rm => srcByte rm
  | .movRegMemImm _ i => i
  | .movMemRegReg _ rm => srcByte rm
  | .movMemRegImm _ i => i
  | .addReg _ rm => srcByte rm
  | .addImm _ i => i
  | .subReg _ rm => srcByte rm
  | .subImm _ i => i
  | .andReg _ rm => srcByte rm
  | .andImm _ i => i
  | .orReg _ rm => srcByte rm
  | .orImm _ i => i
  | .xorReg _ rm => srcByte rm
  | .xorImm _ i => i
  | .cmpReg _ rm => srcByte rm
  | .cmpImm _ i => i
  | .notReg _ => 0
  | .shrReg _ => 0
  | .rorReg _ => 0
  | .asrReg _ => 0
  | .rolReg _ => 0
  | .jmpReg rn => srcByte rn
  | .jmpImm i => i
  | .jeReg rn => srcByte rn
  | .jeImm i => i
  | .jneReg rn => srcByte rn
  | .jneImm i => i
  | .jaReg rn => srcByte rn
  | .jaImm i => i
  | .jaeReg rn => srcByte rn
  | .jaeImm i => i
  | .jbeReg rn => srcByte rn
  | .jbeImm i => i
  | .jbReg rn => srcByte rn
  | .jbImm i => i
  | .jcReg rn => srcByte rn
  | .jcImm i => i
  | .jncReg rn => srcByte rn
  | .jncImm i => i
  | .outReg rn => srcByte rn
  | .outImm i => i
  | .inReg _ => 0

/-- The canonical word of an instruction (R83). -/
def encode (i : Instr) : InstrWord := encodeHigh i ++ encodeLow i

/-! ### The opcode map as data (R68) -/

/-- A row of the opcode map: its number, and the `match` and `mask` such that a word `w` is the form when
`w & mask = match` (R68). -/
structure OpcodeRow where
  num : Nat
  bits : InstrWord
  mask : InstrWord
  deriving DecidableEq, Repr

/-- Whether a word is of the row's form (R68). -/
def OpcodeRow.matchesWord (r : OpcodeRow) (w : InstrWord) : Bool := w &&& r.mask == r.bits

/-- Rows 1 to 6 of R68. -/
def moveRows : List OpcodeRow :=
  [⟨1, 0x0000, 0xFC00⟩,
   ⟨2, 0x1000, 0xFC00⟩,
   ⟨3, 0x0400, 0xFC00⟩,
   ⟨4, 0x1400, 0xFC00⟩,
   ⟨5, 0x0800, 0xFC00⟩,
   ⟨6, 0x1800, 0xFC00⟩]

/-- Rows 7 to 18 of R68. -/
def aluRows : List OpcodeRow :=
  [⟨7, 0x2000, 0xFC00⟩,
   ⟨8, 0x3000, 0xFC00⟩,
   ⟨9, 0x2400, 0xFC00⟩,
   ⟨10, 0x3400, 0xFC00⟩,
   ⟨11, 0x2800, 0xFC00⟩,
   ⟨12, 0x3800, 0xFC00⟩,
   ⟨13, 0x2C00, 0xFC00⟩,
   ⟨14, 0x3C00, 0xFC00⟩,
   ⟨15, 0x4000, 0xFC00⟩,
   ⟨16, 0x5000, 0xFC00⟩,
   ⟨17, 0x4400, 0xFC00⟩,
   ⟨18, 0x5400, 0xFC00⟩]

/-- Rows 19 to 23 of R68. -/
def oneOperandRows : List OpcodeRow :=
  [⟨19, 0x6000, 0xFC00⟩,
   ⟨20, 0x6400, 0xFC00⟩,
   ⟨21, 0x6800, 0xFC00⟩,
   ⟨22, 0x6C00, 0xFC00⟩,
   ⟨23, 0x7000, 0xFC00⟩]

/-- Rows 24 to 41 of R68. -/
def jumpRows : List OpcodeRow :=
  [⟨24, 0xA000, 0xFF00⟩,
   ⟨25, 0xB000, 0xFF00⟩,
   ⟨26, 0xA100, 0xFF00⟩,
   ⟨27, 0xB100, 0xFF00⟩,
   ⟨28, 0xA900, 0xFF00⟩,
   ⟨29, 0xB900, 0xFF00⟩,
   ⟨30, 0xA200, 0xFF00⟩,
   ⟨31, 0xB200, 0xFF00⟩,
   ⟨32, 0xA300, 0xFF00⟩,
   ⟨33, 0xB300, 0xFF00⟩,
   ⟨34, 0xAA00, 0xFF00⟩,
   ⟨35, 0xBA00, 0xFF00⟩,
   ⟨36, 0xAB00, 0xFF00⟩,
   ⟨37, 0xBB00, 0xFF00⟩,
   ⟨38, 0xA400, 0xFF00⟩,
   ⟨39, 0xB400, 0xFF00⟩,
   ⟨40, 0xAC00, 0xFF00⟩,
   ⟨41, 0xBC00, 0xFF00⟩]

/-- Rows 42 to 44 of R68. -/
def ioRows : List OpcodeRow :=
  [⟨42, 0xC000, 0xFC00⟩,
   ⟨43, 0xD000, 0xFC00⟩,
   ⟨44, 0xC400, 0xEC00⟩]

/-- The complete instruction set, 44 rows (R68). -/
def opcodeTable : List OpcodeRow := moveRows ++ aluRows ++ oneOperandRows ++ jumpRows ++ ioRows

/-- The number of an instruction's row in R68. -/
def Instr.rowNumber : Instr → Nat
  | .movRegReg _ _ => 1
  | .movRegImm _ _ => 2
  | .movRegMemReg _ _ => 3
  | .movRegMemImm _ _ => 4
  | .movMemRegReg _ _ => 5
  | .movMemRegImm _ _ => 6
  | .addReg _ _ => 7
  | .addImm _ _ => 8
  | .subReg _ _ => 9
  | .subImm _ _ => 10
  | .andReg _ _ => 11
  | .andImm _ _ => 12
  | .orReg _ _ => 13
  | .orImm _ _ => 14
  | .xorReg _ _ => 15
  | .xorImm _ _ => 16
  | .cmpReg _ _ => 17
  | .cmpImm _ _ => 18
  | .notReg _ => 19
  | .shrReg _ => 20
  | .rorReg _ => 21
  | .asrReg _ => 22
  | .rolReg _ => 23
  | .jmpReg _ => 24
  | .jmpImm _ => 25
  | .jeReg _ => 26
  | .jeImm _ => 27
  | .jneReg _ => 28
  | .jneImm _ => 29
  | .jaReg _ => 30
  | .jaImm _ => 31
  | .jaeReg _ => 32
  | .jaeImm _ => 33
  | .jbeReg _ => 34
  | .jbeImm _ => 35
  | .jbReg _ => 36
  | .jbImm _ => 37
  | .jcReg _ => 38
  | .jcImm _ => 39
  | .jncReg _ => 40
  | .jncImm _ => 41
  | .outReg _ => 42
  | .outImm _ => 43
  | .inReg _ => 44

end Sys2Proof
end

