-- ==== Sys2Proof/Machine/State.lean ====
section
/-!
DEFINITION. The state of the machine: everything spec/10_state.md R31 lists, as plain data, and its reset values (R32).
-/

namespace Sys2Proof.Machine

/-- An event of the I/O trace (10_state.md R29). -/
inductive IoEvent where
  /-- `In(v)`: an `in` obtained `v` from the environment. -/
  | input (v : Byte)
  /-- `Out(v)`: an `out` presented `v` to the environment. -/
  | output (v : Byte)
  deriving DecidableEq, Repr

/-- The memory's data: the cells that the loaded image gave a value or an instruction wrote, as (address, byte) pairs in
one canonical form (`Memory.wf`). An address that is not listed holds NO written value; what a read of it gives is
`State.memRead`'s to say (log 4). -/
abbrev Memory := List Host.Cell

/-- The canonical form: addresses strictly rising, each one of the 256 cells of 20_memory.md R41. An unlisted address has
no written value, so no entry repeats what an unlisted address holds. -/
abbrev Memory.wf (m : Memory) : Prop := m.Pairwise (fun c d => c.1 < d.1) ∧ ∀ c ∈ m, c.1 < Config.decided.memCells

/-- The complete architectural state (10_state.md R31). OF is no state (R26, log 7); the mark `refused` of R31 is the outcome
`Host.Outcome.refused` of the step (log 8). -/
structure State where
  /-- General register RA (R20). -/
  ra : Byte
  /-- General register RB (R20). -/
  rb : Byte
  /-- General register RC (R20). -/
  rc : Byte
  /-- General register RD (R20). -/
  rd : Byte
  /-- The instruction pointer; while an instruction executes, the address of its first byte (R22). -/
  pc : Byte
  /-- The zero flag ZF (R24). -/
  zf : Bool
  /-- The sign flag SF (R24), written by `cmp` and read by nothing (R26). -/
  sf : Bool
  /-- The carry flag CF (R24). -/
  cf : Bool
  /-- Program and data memory (R28). -/
  mem : Memory
  /-- OUT_PORT, the value most recently written by `out` (R29). -/
  outPort : Byte
  /-- The I/O trace, oldest event first (R29). -/
  trace : List IoEvent
  /-- THE MODEL'S OWN FIELD, none of the spec's: how many `in` have drawn a value so far; the next draw is
  `Config.inputByte inputsTaken` (log 5). -/
  inputsTaken : Nat
  /-- THE MODEL'S OWN FIELD, none of the spec's: how many draws of the flags have been made; only under a FLAGS_WRITERS other
  than the decided one is any made (log 11). -/
  flagDraws : Nat
  deriving DecidableEq, Repr

/-- The machine has no exception, trap or fault (60_exceptions.md R180, 00_scope.md R9), so no meaning raises one and the
type has no constructor (log 9). -/
inductive Fault
  deriving DecidableEq, Repr

/-- Why a step has no next state. -/
inductive Refusal where
  /-- An instruction of the opcode table that has no meaning yet; raised by an arm of `exec` only, and by none of them now. Safe:
  nothing is proved of the run. -/
  | notModelled (mnemonic : String)
  /-- `refuse(ReservedEncoding word)`: the fetched word is reserved, and the spec does not say what the hardware does with it
  (30_encoding.md R74, R75). Raised by `reservedOutcome`. Safe: nothing is proved of the run (00_scope.md R9). -/
  | reservedEncoding (why : ReservedKind) (word : InstrWord)
  /-- A CELL, a number of processors or a number of modes that this model has no machine for; raised by `State.fetch`, never under
  the decided parameters. Safe: nothing is proved of such a machine (log 21). -/
  | unsupportedParameters
  /-- An address that ALEN or MEM_CELLS gives no cell; raised by `State.fetch`, `loadToReg` and `moveToMem`, never under the
  decided parameters. Safe: nothing is proved of the run (log 21). -/
  | noSuchCell (a : Byte)
  /-- A store to a cell that is not writable; raised by `moveToMem`, never under the decided parameters. Safe: nothing is proved
  of the run (log 19). -/
  | readOnlyCell (a : Byte)
  /-- A pointer value that a pointer of PCLEN bits and one of 8 bits do not both hold; raised by `State.fetch` and `State.goTo`,
  never under the decided parameters. Safe: nothing is proved of the run (log 21). -/
  | pointerWidth
  deriving DecidableEq, Repr

/-- The outcome of one step of this machine (00_scope.md R9). -/
abbrev Result := Host.Outcome State Fault Refusal

/-- The machine after reset, for a given RESET_PC: the pointer at RESET_PC, the trace empty, no image loaded, and everything
the spec leaves unspecified at a free constant (10_state.md R32, R33; log 1 to 6). -/
def State.resetWith (p : Params) : State where
  ra := Config.resetReg .ra
  rb := Config.resetReg .rb
  rc := Config.resetReg .rc
  rd := Config.resetReg .rd
  pc := p.resetPc
  zf := Config.resetZf
  sf := Config.resetSf
  cf := Config.resetCf
  mem := []
  outPort := Config.resetOutPort
  trace := []
  inputsTaken := 0
  flagDraws := 0

/-- The machine right after reset (10_state.md R32, 70_reset_and_hazards.md R200, R201). -/
def State.reset : State := State.resetWith Config.decided

end Sys2Proof.Machine
end

