-- ==== Sys2Proof/Machine/Ops.lean ====
section
/-!
DEFINITION. The named operations over memory, registers, the instruction pointer and the external interface: the
primitives of spec/00_scope.md R8. There is no operation that takes an exception and none that returns from one: the
machine has neither (spec/60_exceptions.md R180, R184, R185).
-/

namespace Sys2Proof

/-! ### What the parameters allow (00_scope.md R5; log 21) -/

/-- The parameters are those of a machine this model has: cells of 8 bits, one processor, one mode. -/
def Params.supported (p : Params) : Bool := p.cell == 8 && p.processors == 1 && p.privilegeModes == 1

/-- The address has a cell: it lies below 2^ALEN and below MEM_CELLS (decision D1). Every 8-bit address does where these are the
decided values or more, whatever the address is. -/
def Params.hasCell (p : Params) (a : Byte) : Bool :=
  (decide (8 ≤ p.alen) || decide (a.toNat < 2 ^ p.alen)) && (decide (256 ≤ p.memCells) || decide (a.toNat < p.memCells))

/-- The instruction pointer may take the value `n`, counted without a wrap: any, wrapping modulo 256, where PCLEN is 8; otherwise
one that both a pointer of PCLEN bits and the 8-bit pointer of `State` hold (decision D3). -/
def Params.holdsPointer (p : Params) (n : Nat) : Bool :=
  p.pclen == 8 || (decide (n < 2 ^ p.pclen) && decide (n < 256))

end Sys2Proof

namespace Sys2Proof.Machine

/-! ### Memory (20_memory.md R54) -/

/-- The value written at an address, or given there by the loaded image; `none` where nothing has been. -/
def Memory.read? : Memory → Nat → Option Byte
  | [], _ => none
  | c :: rest, a => if c.1 = a then some c.2 else Memory.read? rest a

/-- Write one cell, keeping the canonical form. -/
def Memory.write : Memory → Nat → Byte → Memory
  | [], a, v => [(a, v)]
  | c :: rest, a, v =>
    if a < c.1 then (a, v) :: c :: rest
    else if a = c.1 then (a, v) :: rest
    else c :: Memory.write rest a v

/-- `MemRead(addr, 1)`: always succeeds (20_memory.md R54). A cell that nothing has written holds some byte that the spec does
not fix, always the same one (10_state.md R33, 20_memory.md R47; log 4). -/
def State.memRead (s : State) (a : Byte) : Byte := (s.mem.read? a.toNat).getD (Config.unloadedCell a)

/-- `MemWrite(addr, 1, v)`: always succeeds and changes that cell alone (20_memory.md R47, R54). -/
def State.memWrite (s : State) (a v : Byte) : State := { s with mem := s.mem.write a.toNat v }

/-! ### Registers (10_state.md R20, R21) -/

/-- `x[i]`: read a general register. -/
def State.reg (s : State) : Reg → Byte
  | .ra => s.ra
  | .rb => s.rb
  | .rc => s.rc
  | .rd => s.rd

/-- `x[i] <- v`: write a general register. -/
def State.setReg (s : State) (r : Reg) (v : Byte) : State :=
  match r with
  | .ra => { s with ra := v }
  | .rb => { s with rb := v }
  | .rc => { s with rc := v }
  | .rd => { s with rd := v }

/-! ### The instruction pointer (10_state.md R22, R23) -/

/-- `pc <- target`. -/
def State.setPc (s : State) (target : Byte) : State := { s with pc := target }

/-- `pc <- target`, the end of an instruction; `exact` is the target counted without a wrap, which matters only where PCLEN is
not 8. -/
def State.goTo (p : Params) (exact : Nat) (target : Byte) (s : State) : Result :=
  if p.holdsPointer exact then .next (s.setPc target) else .refused .pointerWidth

/-- The address of the instruction after the one at `pc`: `pc +8 PC_STEP` (R23). -/
def State.nextPc (p : Params) (s : State) : Byte := s.pc + p.pcStep

/-- The end of every instruction that takes no jump: `pc <- pc +8 PC_STEP` (R23). -/
def State.advance (p : Params) (s : State) : Result := s.goTo p (s.pc.toNat + p.pcStep.toNat) (s.nextPc p)

/-! ### Flags (10_state.md R24, R25) -/

/-- Write ZF, SF and CF; only `cmp` does (R25). -/
def State.setFlags (s : State) (zf sf cf : Bool) : State := { s with zf := zf, sf := sf, cf := cf }

/-- The flags take a draw (92_eei_decisions.md D6; log 11). -/
def State.drawFlags (s : State) : State :=
  { s with zf := Config.drawnZf s.flagDraws, sf := Config.drawnSf s.flagDraws, cf := Config.drawnCf s.flagDraws,
           flagDraws := s.flagDraws + 1 }

/-- What an ALU instruction other than `cmp` does to the flags, by FLAGS_WRITERS: nothing, as decided (R25, decision D6). -/
def State.aluFlags (p : Params) (s : State) : State :=
  match p.flagsWriters with
  | .cmpOnly => s
  | .everyAlu => s.drawFlags

/-! ### The external interface (10_state.md R29) -/

/-- `IoWrite(v)`: OUT_PORT takes `v` and the trace gains `Out(v)`. -/
def State.ioWrite (s : State) (v : Byte) : State := { s with outPort := v, trace := s.trace ++ [.output v] }

/-- The value `IoRead()` obtains now: a draw, a free value (R29; log 5). -/
def State.inputValue (s : State) : Byte := Config.inputByte s.inputsTaken

/-- The state after `IoRead()`: the trace gains `In(v)` and the draw is used up. -/
def State.takeInput (s : State) : State :=
  { s with trace := s.trace ++ [.input s.inputValue], inputsTaken := s.inputsTaken + 1 }

end Sys2Proof.Machine
end

