-- ==== Sys2Proof/Machine/AluOne.lean ====
section
/-!
DEFINITION. The one-operand logic and arithmetic instructions (spec/43_alu_one_operand.md R130 to R135): by one bit
position, within the register, no flag written where FLAGS_WRITERS is
`cmp` only, as decided (decisions D6, D10; log 11, 13).
-/

namespace Sys2Proof.Machine

/-- `0 ++ v[7:1]` (R132). -/
def shiftRight (v : Byte) : Byte := 0b0#1 ++ v.extractLsb' 1 7

/-- `v[0] ++ v[7:1]` (R133). -/
def rotateRight (v : Byte) : Byte := v.extractLsb' 0 1 ++ v.extractLsb' 1 7

/-- `v[7] ++ v[7:1]` (R134). -/
def shiftRightArithmetic (v : Byte) : Byte := v.extractLsb' 7 1 ++ v.extractLsb' 1 7

/-- `v[6:0] ++ v[7]` (R135). -/
def rotateLeft (v : Byte) : Byte := v.extractLsb' 0 7 ++ v.extractLsb' 7 1

/-- `x[n] <- op(x[n])` (R130). -/
def aluOne (p : Params) (op : Byte → Byte) (r : Reg) (s : State) : Result :=
  ((s.setReg r (op (s.reg r))).aluFlags p).advance p

/-- `not r` (R131), under given parameters. -/
def execNotRegUnder (p : Params) (r : Reg) (s : State) : Result := aluOne p (fun v => ~~~v) r s

/-- `not r` (R131). -/
def execNotReg (r : Reg) (s : State) : Result := execNotRegUnder Config.decided r s

/-- `shr r` (R132), under given parameters. -/
def execShrRegUnder (p : Params) (r : Reg) (s : State) : Result := aluOne p shiftRight r s

/-- `shr r` (R132). -/
def execShrReg (r : Reg) (s : State) : Result := execShrRegUnder Config.decided r s

/-- `ror r` (R133), under given parameters. -/
def execRorRegUnder (p : Params) (r : Reg) (s : State) : Result := aluOne p rotateRight r s

/-- `ror r` (R133). -/
def execRorReg (r : Reg) (s : State) : Result := execRorRegUnder Config.decided r s

/-- `asr r` (R134), under given parameters. -/
def execAsrRegUnder (p : Params) (r : Reg) (s : State) : Result := aluOne p shiftRightArithmetic r s

/-- `asr r` (R134). -/
def execAsrReg (r : Reg) (s : State) : Result := execAsrRegUnder Config.decided r s

/-- `rol r` (R135), under given parameters. -/
def execRolRegUnder (p : Params) (r : Reg) (s : State) : Result := aluOne p rotateLeft r s

/-- `rol r` (R135). -/
def execRolReg (r : Reg) (s : State) : Result := execRolRegUnder Config.decided r s

end Sys2Proof.Machine
end

