-- ==== Sys2Proof/Machine/Operands.lean ====
section
/-!
DEFINITION. The operand forms: a source that is a register or an immediate (spec/30_encoding.md R65), used as a value, as
a memory address (in `mov` only) or as a jump target.
-/

namespace Sys2Proof.Machine

/-- The source operand of formats M, A2, J and IO, as the I/R-bar bit chooses it (30_encoding.md R64, R65). -/
inductive Src where
  | reg (r : Reg)
  | imm (i : Byte)
  deriving DecidableEq, Repr

/-- `src_val`: the register's value, or the immediate as it is (30_encoding.md R65). -/
def State.srcVal (s : State) : Src → Byte
  | .reg r => s.reg r
  | .imm i => i

/-- The value of a source in memory, `[rm]` or `[i]`: the cell at the address `src_val` (40_move.md R100). -/
def State.srcCell (s : State) (src : Src) : Byte := s.memRead (s.srcVal src)

end Sys2Proof.Machine
end

