-- ==== Sys2Proof/Machine/AluTwo.lean ====
section
/-!
DEFINITION. The two-operand logic and arithmetic instructions (spec/41_alu_two_operand.md R110 to R121). They write no flag
where FLAGS_WRITERS is `cmp` only, as decided (decision D6, log 11).
-/

namespace Sys2Proof.Machine

/-- `x[n] <- op(x[n], src_val)`, both operands read before the result is written (R110). -/
def aluTwo (p : Params) (op : Byte → Byte → Byte) (rn : Reg) (src : Src) (s : State) : Result :=
  ((s.setReg rn (op (s.reg rn) (s.srcVal src))).aluFlags p).advance p

/-- `add rn, rm` (R111), under given parameters. -/
def execAddRegUnder (p : Params) (rn rm : Reg) (s : State) : Result := aluTwo p (fun a b => a + b) rn (.reg rm) s

/-- `add rn, rm` (R111). -/
def execAddReg (rn rm : Reg) (s : State) : Result := execAddRegUnder Config.decided rn rm s

/-- `add rn, i` (R112), under given parameters. -/
def execAddImmUnder (p : Params) (rn : Reg) (i : Byte) (s : State) : Result := aluTwo p (fun a b => a + b) rn (.imm i) s

/-- `add rn, i` (R112). -/
def execAddImm (rn : Reg) (i : Byte) (s : State) : Result := execAddImmUnder Config.decided rn i s

/-- `sub rn, rm` (R113), under given parameters. -/
def execSubRegUnder (p : Params) (rn rm : Reg) (s : State) : Result := aluTwo p (fun a b => a - b) rn (.reg rm) s

/-- `sub rn, rm` (R113). -/
def execSubReg (rn rm : Reg) (s : State) : Result := execSubRegUnder Config.decided rn rm s

/-- `sub rn, i` (R114), under given parameters. -/
def execSubImmUnder (p : Params) (rn : Reg) (i : Byte) (s : State) : Result := aluTwo p (fun a b => a - b) rn (.imm i) s

/-- `sub rn, i` (R114). -/
def execSubImm (rn : Reg) (i : Byte) (s : State) : Result := execSubImmUnder Config.decided rn i s

/-- `and rn, rm` (R115), under given parameters. -/
def execAndRegUnder (p : Params) (rn rm : Reg) (s : State) : Result := aluTwo p (fun a b => a &&& b) rn (.reg rm) s

/-- `and rn, rm` (R115). -/
def execAndReg (rn rm : Reg) (s : State) : Result := execAndRegUnder Config.decided rn rm s

/-- `and rn, i` (R116), under given parameters. -/
def execAndImmUnder (p : Params) (rn : Reg) (i : Byte) (s : State) : Result := aluTwo p (fun a b => a &&& b) rn (.imm i) s

/-- `and rn, i` (R116). -/
def execAndImm (rn : Reg) (i : Byte) (s : State) : Result := execAndImmUnder Config.decided rn i s

/-- `or rn, rm` (R117), under given parameters. -/
def execOrRegUnder (p : Params) (rn rm : Reg) (s : State) : Result := aluTwo p (fun a b => a ||| b) rn (.reg rm) s

/-- `or rn, rm` (R117). -/
def execOrReg (rn rm : Reg) (s : State) : Result := execOrRegUnder Config.decided rn rm s

/-- `or rn, i` (R118), under given parameters. -/
def execOrImmUnder (p : Params) (rn : Reg) (i : Byte) (s : State) : Result := aluTwo p (fun a b => a ||| b) rn (.imm i) s

/-- `or rn, i` (R118). -/
def execOrImm (rn : Reg) (i : Byte) (s : State) : Result := execOrImmUnder Config.decided rn i s

/-- `xor rn, rm` (R119), under given parameters. -/
def execXorRegUnder (p : Params) (rn rm : Reg) (s : State) : Result := aluTwo p (fun a b => a ^^^ b) rn (.reg rm) s

/-- `xor rn, rm` (R119). -/
def execXorReg (rn rm : Reg) (s : State) : Result := execXorRegUnder Config.decided rn rm s

/-- `xor rn, i` (R120), under given parameters. -/
def execXorImmUnder (p : Params) (rn : Reg) (i : Byte) (s : State) : Result := aluTwo p (fun a b => a ^^^ b) rn (.imm i) s

/-- `xor rn, i` (R120). -/
def execXorImm (rn : Reg) (i : Byte) (s : State) : Result := execXorImmUnder Config.decided rn i s

end Sys2Proof.Machine
end

