-- ==== Sys2Proof/Machine/Flags.lean ====
section
/-!
DEFINITION. What `cmp` computes into the flags (spec/42_compare.md R125) and the conditions the jumps read from them
(spec/44_jumps.md R142).
-/

namespace Sys2Proof.Machine

/-- ZF after `cmp`: the operands are equal (42_compare.md R125). -/
def zeroFlag (a b : Byte) : Bool := a == b

/-- CF after `cmp`: the first operand is below the second, unsigned (42_compare.md R125). -/
def carryFlag (a b : Byte) : Bool := a.ult b

/-- SF after `cmp`: bit 7 of the 8-bit difference (42_compare.md R125, decision D7; log 12). -/
def signFlag (a b : Byte) : Bool := (a - b).getLsbD 7

/-- The conditions of the jump table (44_jumps.md R142). -/
inductive Cond where
  | always
  | equal
  | notEqual
  | above
  | aboveEqual
  | belowEqual
  | below
  | carry
  | notCarry
  deriving DecidableEq, Repr

/-- `cond(ZF, CF)` (44_jumps.md R142; `aboveEqual` and `belowEqual` by decision D13, `carry` and `notCarry` by decision
D14, log 14). -/
def Cond.holds (c : Cond) (zf cf : Bool) : Bool :=
  match c with
  | .always => true
  | .equal => zf
  | .notEqual => !zf
  | .above => !zf && !cf
  | .aboveEqual => zf || !cf
  | .belowEqual => zf || cf
  | .below => !zf && cf
  | .carry => cf
  | .notCarry => !cf

end Sys2Proof.Machine
end

