-- ==== Sys2Proof/Machine/Compare.lean ====
section
/-!
DEFINITION. The comparison (spec/42_compare.md R125 to R128): the only instruction that writes the flags.
-/

namespace Sys2Proof.Machine

/-- Compare `x[n]` with `src_val`: ZF, SF and CF of the subtraction, no register written (R125). -/
def compareWith (p : Params) (rn : Reg) (src : Src) (s : State) : Result :=
  let a := s.reg rn
  let b := s.srcVal src
  (s.setFlags (zeroFlag a b) (signFlag a b) (carryFlag a b)).advance p

/-- `cmp rn, rm` (R126), under given parameters. -/
def execCmpRegUnder (p : Params) (rn rm : Reg) (s : State) : Result := compareWith p rn (.reg rm) s

/-- `cmp rn, rm` (R126). -/
def execCmpReg (rn rm : Reg) (s : State) : Result := execCmpRegUnder Config.decided rn rm s

/-- `cmp rn, i` (R127), under given parameters. -/
def execCmpImmUnder (p : Params) (rn : Reg) (i : Byte) (s : State) : Result := compareWith p rn (.imm i) s

/-- `cmp rn, i` (R127). -/
def execCmpImm (rn : Reg) (i : Byte) (s : State) : Result := execCmpImmUnder Config.decided rn i s

end Sys2Proof.Machine
end

