-- ==== Sys2Proof/Machine/ExternalInterface.lean ====
section
/-!
DEFINITION. The external interface instructions (spec/45_external_interface.md R170 to R173). Neither waits, neither touches a
flag or memory.
-/

namespace Sys2Proof.Machine

/-- `IoWrite(src_val)` (R170). -/
def outputFrom (p : Params) (src : Src) (s : State) : Result := (s.ioWrite (s.srcVal src)).advance p

/-- `out rn` (R171), under given parameters. -/
def execOutRegUnder (p : Params) (rn : Reg) (s : State) : Result := outputFrom p (.reg rn) s

/-- `out rn` (R171). -/
def execOutReg (rn : Reg) (s : State) : Result := execOutRegUnder Config.decided rn s

/-- `out i` (R172), under given parameters. -/
def execOutImmUnder (p : Params) (i : Byte) (s : State) : Result := outputFrom p (.imm i) s

/-- `out i` (R172). -/
def execOutImm (i : Byte) (s : State) : Result := execOutImmUnder Config.decided i s

/-- `in rn`: `v <- IoRead(); x[n] <- v`, the value a draw (R173; log 5), under given parameters. -/
def execInRegUnder (p : Params) (rn : Reg) (s : State) : Result :=
  (s.takeInput.setReg rn s.inputValue).advance p

/-- `in rn`: `v <- IoRead(); x[n] <- v`, the value a draw (R173; log 5). -/
def execInReg (rn : Reg) (s : State) : Result := execInRegUnder Config.decided rn s

end Sys2Proof.Machine
end

