-- ==== Sys2Proof/Machine/Jumps.lean ====
section
/-!
DEFINITION. The jumps (spec/44_jumps.md R140 to R161). A jump writes nothing but the instruction pointer.
-/

namespace Sys2Proof.Machine

/-- `if cond(ZF, CF) then pc <- target else pc <- pc +8 PC_STEP`, the target absolute (R140). -/
def jumpIf (p : Params) (c : Cond) (src : Src) (s : State) : Result :=
  s.goTo p (if c.holds s.zf s.cf then (s.srcVal src).toNat else s.pc.toNat + p.pcStep.toNat)
    (if c.holds s.zf s.cf then s.srcVal src else s.nextPc p)

/-- `jmp rn` (R144), under given parameters. -/
def execJmpRegUnder (p : Params) (rn : Reg) (s : State) : Result := jumpIf p .always (.reg rn) s

/-- `jmp rn` (R144). -/
def execJmpReg (rn : Reg) (s : State) : Result := execJmpRegUnder Config.decided rn s

/-- `jmp i` (R145), under given parameters. -/
def execJmpImmUnder (p : Params) (i : Byte) (s : State) : Result := jumpIf p .always (.imm i) s

/-- `jmp i` (R145). -/
def execJmpImm (i : Byte) (s : State) : Result := execJmpImmUnder Config.decided i s

/-- `je rn` / `jz rn` (R146), under given parameters. -/
def execJeRegUnder (p : Params) (rn : Reg) (s : State) : Result := jumpIf p .equal (.reg rn) s

/-- `je rn` / `jz rn` (R146). -/
def execJeReg (rn : Reg) (s : State) : Result := execJeRegUnder Config.decided rn s

/-- `je i` / `jz i` (R147), under given parameters. -/
def execJeImmUnder (p : Params) (i : Byte) (s : State) : Result := jumpIf p .equal (.imm i) s

/-- `je i` / `jz i` (R147). -/
def execJeImm (i : Byte) (s : State) : Result := execJeImmUnder Config.decided i s

/-- `jne rn` / `jnz rn` (R148), under given parameters. -/
def execJneRegUnder (p : Params) (rn : Reg) (s : State) : Result := jumpIf p .notEqual (.reg rn) s

/-- `jne rn` / `jnz rn` (R148). -/
def execJneReg (rn : Reg) (s : State) : Result := execJneRegUnder Config.decided rn s

/-- `jne i` / `jnz i` (R149), under given parameters. -/
def execJneImmUnder (p : Params) (i : Byte) (s : State) : Result := jumpIf p .notEqual (.imm i) s

/-- `jne i` / `jnz i` (R149). -/
def execJneImm (i : Byte) (s : State) : Result := execJneImmUnder Config.decided i s

/-- `ja rn` (R150), under given parameters. -/
def execJaRegUnder (p : Params) (rn : Reg) (s : State) : Result := jumpIf p .above (.reg rn) s

/-- `ja rn` (R150). -/
def execJaReg (rn : Reg) (s : State) : Result := execJaRegUnder Config.decided rn s

/-- `ja i` (R151), under given parameters. -/
def execJaImmUnder (p : Params) (i : Byte) (s : State) : Result := jumpIf p .above (.imm i) s

/-- `ja i` (R151). -/
def execJaImm (i : Byte) (s : State) : Result := execJaImmUnder Config.decided i s

/-- `jae rn` (R152), under given parameters. -/
def execJaeRegUnder (p : Params) (rn : Reg) (s : State) : Result := jumpIf p .aboveEqual (.reg rn) s

/-- `jae rn` (R152). -/
def execJaeReg (rn : Reg) (s : State) : Result := execJaeRegUnder Config.decided rn s

/-- `jae i` (R153), under given parameters. -/
def execJaeImmUnder (p : Params) (i : Byte) (s : State) : Result := jumpIf p .aboveEqual (.imm i) s

/-- `jae i` (R153). -/
def execJaeImm (i : Byte) (s : State) : Result := execJaeImmUnder Config.decided i s

/-- `jbe rn` (R154), under given parameters. -/
def execJbeRegUnder (p : Params) (rn : Reg) (s : State) : Result := jumpIf p .belowEqual (.reg rn) s

/-- `jbe rn` (R154). -/
def execJbeReg (rn : Reg) (s : State) : Result := execJbeRegUnder Config.decided rn s

/-- `jbe i` (R155), under given parameters. -/
def execJbeImmUnder (p : Params) (i : Byte) (s : State) : Result := jumpIf p .belowEqual (.imm i) s

/-- `jbe i` (R155). -/
def execJbeImm (i : Byte) (s : State) : Result := execJbeImmUnder Config.decided i s

/-- `jb rn` (R156), under given parameters. -/
def execJbRegUnder (p : Params) (rn : Reg) (s : State) : Result := jumpIf p .below (.reg rn) s

/-- `jb rn` (R156). -/
def execJbReg (rn : Reg) (s : State) : Result := execJbRegUnder Config.decided rn s

/-- `jb i` (R157), under given parameters. -/
def execJbImmUnder (p : Params) (i : Byte) (s : State) : Result := jumpIf p .below (.imm i) s

/-- `jb i` (R157). -/
def execJbImm (i : Byte) (s : State) : Result := execJbImmUnder Config.decided i s

/-- `jc rn` (R158), under given parameters. -/
def execJcRegUnder (p : Params) (rn : Reg) (s : State) : Result := jumpIf p .carry (.reg rn) s

/-- `jc rn` (R158). -/
def execJcReg (rn : Reg) (s : State) : Result := execJcRegUnder Config.decided rn s

/-- `jc i` (R159), under given parameters. -/
def execJcImmUnder (p : Params) (i : Byte) (s : State) : Result := jumpIf p .carry (.imm i) s

/-- `jc i` (R159). -/
def execJcImm (i : Byte) (s : State) : Result := execJcImmUnder Config.decided i s

/-- `jnc rn` (R160), under given parameters. -/
def execJncRegUnder (p : Params) (rn : Reg) (s : State) : Result := jumpIf p .notCarry (.reg rn) s

/-- `jnc rn` (R160). -/
def execJncReg (rn : Reg) (s : State) : Result := execJncRegUnder Config.decided rn s

/-- `jnc i` (R161), under given parameters. -/
def execJncImmUnder (p : Params) (i : Byte) (s : State) : Result := jumpIf p .notCarry (.imm i) s

/-- `jnc i` (R161). -/
def execJncImm (i : Byte) (s : State) : Result := execJncImmUnder Config.decided i s

end Sys2Proof.Machine
end

