-- ==== Sys2Proof/Machine/Move.lean ====
section
/-!
DEFINITION. The move instructions (spec/40_move.md R100 to R106). No move reads or writes a flag.
-/

namespace Sys2Proof.Machine

/-- A move into a register, dd#m = 0: `x[n] <- value` (R100). -/
def moveToReg (p : Params) (rn : Reg) (value : Byte) (s : State) : Result := (s.setReg rn value).advance p

/-- A move into a register from the memory cell at `src_val`, sd#m = 1 (R100). -/
def loadToReg (p : Params) (rn : Reg) (src : Src) (s : State) : Result :=
  if p.hasCell (s.srcVal src) then moveToReg p rn (s.srcCell src) s else .refused (.noSuchCell (s.srcVal src))

/-- A move into memory, dd#m = 1: `MemWrite(x[n], 1, value)` (R100). -/
def moveToMem (p : Params) (rn : Reg) (value : Byte) (s : State) : Result :=
  if p.hasCell (s.reg rn) then
    if p.readOnlyCells.contains (s.reg rn) then .refused (.readOnlyCell (s.reg rn))
    else (s.memWrite (s.reg rn) value).advance p
  else .refused (.noSuchCell (s.reg rn))

/-- `mov rn, rm` (R101), under given parameters. -/
def execMovRegRegUnder (p : Params) (rn rm : Reg) (s : State) : Result := moveToReg p rn (s.srcVal (.reg rm)) s

/-- `mov rn, rm` (R101). -/
def execMovRegReg (rn rm : Reg) (s : State) : Result := execMovRegRegUnder Config.decided rn rm s

/-- `mov rn, i` (R102), under given parameters. -/
def execMovRegImmUnder (p : Params) (rn : Reg) (i : Byte) (s : State) : Result := moveToReg p rn (s.srcVal (.imm i)) s

/-- `mov rn, i` (R102). -/
def execMovRegImm (rn : Reg) (i : Byte) (s : State) : Result := execMovRegImmUnder Config.decided rn i s

/-- `mov rn, [rm]` (R103), under given parameters. -/
def execMovRegMemRegUnder (p : Params) (rn rm : Reg) (s : State) : Result := loadToReg p rn (.reg rm) s

/-- `mov rn, [rm]` (R103). -/
def execMovRegMemReg (rn rm : Reg) (s : State) : Result := execMovRegMemRegUnder Config.decided rn rm s

/-- `mov rn, [i]` (R104), under given parameters. -/
def execMovRegMemImmUnder (p : Params) (rn : Reg) (i : Byte) (s : State) : Result := loadToReg p rn (.imm i) s

/-- `mov rn, [i]` (R104). -/
def execMovRegMemImm (rn : Reg) (i : Byte) (s : State) : Result := execMovRegMemImmUnder Config.decided rn i s

/-- `mov [rn], rm` (R105), under given parameters. -/
def execMovMemRegRegUnder (p : Params) (rn rm : Reg) (s : State) : Result := moveToMem p rn (s.srcVal (.reg rm)) s

/-- `mov [rn], rm` (R105). -/
def execMovMemRegReg (rn rm : Reg) (s : State) : Result := execMovMemRegRegUnder Config.decided rn rm s

/-- `mov [rn], i` (R106), under given parameters. -/
def execMovMemRegImmUnder (p : Params) (rn : Reg) (i : Byte) (s : State) : Result := moveToMem p rn (s.srcVal (.imm i)) s

/-- `mov [rn], i` (R106). -/
def execMovMemRegImm (rn : Reg) (i : Byte) (s : State) : Result := execMovMemRegImmUnder Config.decided rn i s

end Sys2Proof.Machine
end

