-- ==== Sys2Proof/Machine/Dispatch.lean ====
section
/-!
DEFINITION. One arm per constructor of `Instr`, each one direct call of the instruction's meaning.
-/

namespace Sys2Proof.Machine

/-- The execute phase of R10 of spec/00_scope.md: `s.pc` is the instruction's own address (spec/10_state.md R22). -/
def exec (i : Instr) (s : State) : Host.Outcome State Fault Refusal :=
  match i with
  | .movRegReg rn rm => Sys2Proof.Machine.execMovRegReg rn rm s
  | .movRegImm rn imm => Sys2Proof.Machine.execMovRegImm rn imm s
  | .movRegMemReg rn rm => Sys2Proof.Machine.execMovRegMemReg rn rm s
  | .movRegMemImm rn imm => Sys2Proof.Machine.execMovRegMemImm rn imm s
  | .movMemRegReg rn rm => Sys2Proof.Machine.execMovMemRegReg rn rm s
  | .movMemRegImm rn imm => Sys2Proof.Machine.execMovMemRegImm rn imm s
  | .addReg rn rm => Sys2Proof.Machine.execAddReg rn rm s
  | .addImm rn imm => Sys2Proof.Machine.execAddImm rn imm s
  | .subReg rn rm => Sys2Proof.Machine.execSubReg rn rm s
  | .subImm rn imm => Sys2Proof.Machine.execSubImm rn imm s
  | .andReg rn rm => Sys2Proof.Machine.execAndReg rn rm s
  | .andImm rn imm => Sys2Proof.Machine.execAndImm rn imm s
  | .orReg rn rm => Sys2Proof.Machine.execOrReg rn rm s
  | .orImm rn imm => Sys2Proof.Machine.execOrImm rn imm s
  | .xorReg rn rm => Sys2Proof.Machine.execXorReg rn rm s
  | .xorImm rn imm => Sys2Proof.Machine.execXorImm rn imm s
  | .cmpReg rn rm => Sys2Proof.Machine.execCmpReg rn rm s
  | .cmpImm rn imm => Sys2Proof.Machine.execCmpImm rn imm s
  | .notReg r => Sys2Proof.Machine.execNotReg r s
  | .shrReg r => Sys2Proof.Machine.execShrReg r s
  | .rorReg r => Sys2Proof.Machine.execRorReg r s
  | .asrReg r => Sys2Proof.Machine.execAsrReg r s
  | .rolReg r => Sys2Proof.Machine.execRolReg r s
  | .jmpReg rn => Sys2Proof.Machine.execJmpReg rn s
  | .jmpImm imm => Sys2Proof.Machine.execJmpImm imm s
  | .jeReg rn => Sys2Proof.Machine.execJeReg rn s
  | .jeImm imm => Sys2Proof.Machine.execJeImm imm s
  | .jneReg rn => Sys2Proof.Machine.execJneReg rn s
  | .jneImm imm => Sys2Proof.Machine.execJneImm imm s
  | .jaReg rn => Sys2Proof.Machine.execJaReg rn s
  | .jaImm imm => Sys2Proof.Machine.execJaImm imm s
  | .jaeReg rn => Sys2Proof.Machine.execJaeReg rn s
  | .jaeImm imm => Sys2Proof.Machine.execJaeImm imm s
  | .jbeReg rn => Sys2Proof.Machine.execJbeReg rn s
  | .jbeImm imm => Sys2Proof.Machine.execJbeImm imm s
  | .jbReg rn => Sys2Proof.Machine.execJbReg rn s
  | .jbImm imm => Sys2Proof.Machine.execJbImm imm s
  | .jcReg rn => Sys2Proof.Machine.execJcReg rn s
  | .jcImm imm => Sys2Proof.Machine.execJcImm imm s
  | .jncReg rn => Sys2Proof.Machine.execJncReg rn s
  | .jncImm imm => Sys2Proof.Machine.execJncImm imm s
  | .outReg rn => Sys2Proof.Machine.execOutReg rn s
  | .outImm imm => Sys2Proof.Machine.execOutImm imm s
  | .inReg rn => Sys2Proof.Machine.execInReg rn s

end Sys2Proof.Machine
end

