-- ==== Sys2Proof/Machine/ExecUnder.lean ====
section
/-!
DEFINITION. The execute phase under given parameters (spec/00_scope.md R5, R10); `exec` is this at the decided ones.
-/

namespace Sys2Proof.Machine

/-- The execute phase of R10 of spec/00_scope.md under given parameters. -/
def execUnder (p : Params) (i : Instr) (s : State) : Result :=
  match i with
  | .movRegReg rn rm => execMovRegRegUnder p rn rm s
  | .movRegImm rn imm => execMovRegImmUnder p rn imm s
  | .movRegMemReg rn rm => execMovRegMemRegUnder p rn rm s
  | .movRegMemImm rn imm => execMovRegMemImmUnder p rn imm s
  | .movMemRegReg rn rm => execMovMemRegRegUnder p rn rm s
  | .movMemRegImm rn imm => execMovMemRegImmUnder p rn imm s
  | .addReg rn rm => execAddRegUnder p rn rm s
  | .addImm rn imm => execAddImmUnder p rn imm s
  | .subReg rn rm => execSubRegUnder p rn rm s
  | .subImm rn imm => execSubImmUnder p rn imm s
  | .andReg rn rm => execAndRegUnder p rn rm s
  | .andImm rn imm => execAndImmUnder p rn imm s
  | .orReg rn rm => execOrRegUnder p rn rm s
  | .orImm rn imm => execOrImmUnder p rn imm s
  | .xorReg rn rm => execXorRegUnder p rn rm s
  | .xorImm rn imm => execXorImmUnder p rn imm s
  | .cmpReg rn rm => execCmpRegUnder p rn rm s
  | .cmpImm rn imm => execCmpImmUnder p rn imm s
  | .notReg r => execNotRegUnder p r s
  | .shrReg r => execShrRegUnder p r s
  | .rorReg r => execRorRegUnder p r s
  | .asrReg r => execAsrRegUnder p r s
  | .rolReg r => execRolRegUnder p r s
  | .jmpReg rn => execJmpRegUnder p rn s
  | .jmpImm imm => execJmpImmUnder p imm s
  | .jeReg rn => execJeRegUnder p rn s
  | .jeImm imm => execJeImmUnder p imm s
  | .jneReg rn => execJneRegUnder p rn s
  | .jneImm imm => execJneImmUnder p imm s
  | .jaReg rn => execJaRegUnder p rn s
  | .jaImm imm => execJaImmUnder p imm s
  | .jaeReg rn => execJaeRegUnder p rn s
  | .jaeImm imm => execJaeImmUnder p imm s
  | .jbeReg rn => execJbeRegUnder p rn s
  | .jbeImm imm => execJbeImmUnder p imm s
  | .jbReg rn => execJbRegUnder p rn s
  | .jbImm imm => execJbImmUnder p imm s
  | .jcReg rn => execJcRegUnder p rn s
  | .jcImm imm => execJcImmUnder p imm s
  | .jncReg rn => execJncRegUnder p rn s
  | .jncImm imm => execJncImmUnder p imm s
  | .outReg rn => execOutRegUnder p rn s
  | .outImm imm => execOutImmUnder p imm s
  | .inReg rn => execInRegUnder p rn s

end Sys2Proof.Machine
end

