-- ==== Sys2Proof/Machine/Fetch.lean ====
section
/-!
DEFINITION. Fetching an instruction (spec/00_scope.md R10, spec/20_memory.md R42 to R46), placing one where it is fetched, and
the order of a step.
-/

namespace Sys2Proof.Machine

/-- The address of an instruction's second byte, modulo 256 (20_memory.md R42, R45). -/
def State.secondAddr (s : State) : Byte := s.pc + 1

/-- The word in the two cells at `pc` and `pc +8 1`, in the given byte order (20_memory.md R42). No alignment (R44). -/
def State.fetchWord (o : ByteOrder) (s : State) : InstrWord :=
  wordOfBytes o (s.memRead s.pc) (s.memRead s.secondAddr)

/-- Store an instruction word in the two cells at `pc` and `pc +8 1` (20_memory.md R42). -/
def State.placeWord (o : ByteOrder) (w : InstrWord) (s : State) : State :=
  (s.memWrite s.pc (firstByte o w)).memWrite s.secondAddr (secondByte o w)

/-- The fetch phase under given parameters (00_scope.md R10): the word, or the reason the parameters leave no word to fetch. -/
def State.fetch (p : Params) (s : State) : Except Refusal InstrWord :=
  if p.supported = false then .error .unsupportedParameters
  else if p.holdsPointer (s.pc.toNat + 1) = false then .error .pointerWidth
  else if p.hasCell s.pc = false then .error (.noSuchCell s.pc)
  else if p.hasCell s.secondAddr = false then .error (.noSuchCell s.secondAddr)
  else .ok (s.fetchWord p.instrByteOrder)

/-- What a step does on a reserved word (RESERVED_TREATMENT; 30_encoding.md R75, log 10): refuse it, as decided. -/
def reservedOutcome (p : Params) (why : ReservedKind) (w : InstrWord) (s : State) : Result :=
  match p.reservedTreatment with
  | .refuse => .refused (.reservedEncoding why w)
  | .noOperation => s.advance p
  | .halt => .next s

/-- The order of a step (00_scope.md R10): fetch the word at `pc`, decode it, and run what it decodes to. -/
def stepBy (p : Params) (run : Instr → State → Result) (s : State) : Result :=
  match s.fetch p with
  | .error r => .refused r
  | .ok w =>
    match decodeWith p w with
    | .ok i => run i s
    | .error why => reservedOutcome p why w s

end Sys2Proof.Machine
end

