-- ==== Sys2Proof/Machine/Step.lean ====
section
/-!
DEFINITION. The step (spec/00_scope.md R10): fetch the word at `pc`, decode it, execute it; a reserved word is refused
(R9, spec/30_encoding.md R75). Nothing happens between steps.
-/

namespace Sys2Proof.Machine

/-- The step under given parameters (R5, R10). -/
def stepWith (p : Params) (s : State) : Host.Outcome State Fault Refusal := stepBy p (execUnder p) s

/-- The step with the parameters the spec decides (R10); it is `stepWith Config.decided`, as `stepWith_decided` says. -/
def step (s : State) : Host.Outcome State Fault Refusal := stepBy Config.decided exec s

/-- `s` with the instruction whose bits are `w`, numbered as spec/opcode_table.json numbers them, in the cells at `pc` and
`pc +8 1`: it stands for the platform's load of the image (spec/70_reset_and_hazards.md R202; log 6, 22). -/
def State.withFetchWord (s : State) (nbits w : Nat) : State :=
  s.placeWord Config.decided.instrByteOrder (tableWord nbits w)

end Sys2Proof.Machine
end

