-- ==== Sys2Proof/Machine/Assembler.lean ====
section
/-!
DEFINITION. The assembler syntax of spec/30_encoding.md R78 to R83: statements, the operand shapes each mnemonic takes,
numerals, aliases, the canonical word of a statement and the statement of a word. The machine does not depend on it.
-/

namespace Sys2Proof.Machine

/-- The mnemonics the source writes; `jz` and `jnz` are aliases of `je` and `jne` (R81), and `inp` is the one written "in". -/
inductive Mnemonic where
  | mov | add | sub | and | or | xor | cmp | not | shr | ror | asr | rol
  | jmp | je | jz | jne | jnz | ja | jae | jbe | jb | jc | jnc | out | inp
  deriving DecidableEq, Repr

/-- An operand as written: a register, a numeral, or either in square brackets (R79). -/
inductive Operand where
  | reg (r : Reg)
  | num (n : Nat)
  | memReg (r : Reg)
  | memNum (n : Nat)
  deriving DecidableEq, Repr

/-- A statement: a mnemonic and its operands, the destination first (R78). -/
structure AsmStatement where
  mnemonic : Mnemonic
  operands : List Operand
  deriving DecidableEq, Repr

/-! ### From statements to instructions (R79, R81) -/

/-- An immediate must fit 8 bits (R80). -/
def immediate (n : Nat) : Option Byte := if n < 256 then some (BitVec.ofNat 8 n) else none

/-- The operand shapes of `mov` (R79): brackets on one operand at a time, and no immediate in brackets as destination. -/
def assembleMov : List Operand → Option Instr
  | [.reg rn, .reg rm] => some (.movRegReg rn rm)
  | [.reg rn, .num n] => (immediate n).map (.movRegImm rn)
  | [.reg rn, .memReg rm] => some (.movRegMemReg rn rm)
  | [.reg rn, .memNum n] => (immediate n).map (.movRegMemImm rn)
  | [.memReg rn, .reg rm] => some (.movMemRegReg rn rm)
  | [.memReg rn, .num n] => (immediate n).map (.movMemRegImm rn)
  | _ => none

/-- The operand shapes of a two-operand ALU instruction and of `cmp` (R79). -/
def assembleTwo (reg : Reg → Reg → Instr) (imm : Reg → Byte → Instr) : List Operand → Option Instr
  | [.reg rn, .reg rm] => some (reg rn rm)
  | [.reg rn, .num n] => (immediate n).map (imm rn)
  | _ => none

/-- The one operand of not, shr, ror, asr, rol and in: a register (R79). -/
def assembleReg (reg : Reg → Instr) : List Operand → Option Instr
  | [.reg r] => some (reg r)
  | _ => none

/-- The one operand of a jump and of `out`: a register or an immediate (R79). -/
def assembleSrc (reg : Reg → Instr) (imm : Byte → Instr) : List Operand → Option Instr
  | [.reg r] => some (reg r)
  | [.num n] => (immediate n).map imm
  | _ => none

/-- The instruction of a statement; any operand shape the opcode map does not list is rejected (R79). -/
def assemble (s : AsmStatement) : Option Instr :=
  match s.mnemonic with
  | .mov => assembleMov s.operands
  | .add => assembleTwo .addReg .addImm s.operands
  | .sub => assembleTwo .subReg .subImm s.operands
  | .and => assembleTwo .andReg .andImm s.operands
  | .or => assembleTwo .orReg .orImm s.operands
  | .xor => assembleTwo .xorReg .xorImm s.operands
  | .cmp => assembleTwo .cmpReg .cmpImm s.operands
  | .not => assembleReg .notReg s.operands
  | .shr => assembleReg .shrReg s.operands
  | .ror => assembleReg .rorReg s.operands
  | .asr => assembleReg .asrReg s.operands
  | .rol => assembleReg .rolReg s.operands
  | .jmp => assembleSrc .jmpReg .jmpImm s.operands
  | .je | .jz => assembleSrc .jeReg .jeImm s.operands
  | .jne | .jnz => assembleSrc .jneReg .jneImm s.operands
  | .ja => assembleSrc .jaReg .jaImm s.operands
  | .jae => assembleSrc .jaeReg .jaeImm s.operands
  | .jbe => assembleSrc .jbeReg .jbeImm s.operands
  | .jb => assembleSrc .jbReg .jbImm s.operands
  | .jc => assembleSrc .jcReg .jcImm s.operands
  | .jnc => assembleSrc .jncReg .jncImm s.operands
  | .out => assembleSrc .outReg .outImm s.operands
  | .inp => assembleReg .inReg s.operands

/-! ### From instructions to statements (R83) -/

/-- The statement of an instruction, under its first mnemonic (R68, R83). -/
def disassemble : Instr → AsmStatement
  | .movRegReg rn rm => ⟨.mov, [.reg rn, .reg rm]⟩
  | .movRegImm rn i => ⟨.mov, [.reg rn, .num i.toNat]⟩
  | .movRegMemReg rn rm => ⟨.mov, [.reg rn, .memReg rm]⟩
  | .movRegMemImm rn i => ⟨.mov, [.reg rn, .memNum i.toNat]⟩
  | .movMemRegReg rn rm => ⟨.mov, [.memReg rn, .reg rm]⟩
  | .movMemRegImm rn i => ⟨.mov, [.memReg rn, .num i.toNat]⟩
  | .addReg rn rm => ⟨.add, [.reg rn, .reg rm]⟩
  | .addImm rn i => ⟨.add, [.reg rn, .num i.toNat]⟩
  | .subReg rn rm => ⟨.sub, [.reg rn, .reg rm]⟩
  | .subImm rn i => ⟨.sub, [.reg rn, .num i.toNat]⟩
  | .andReg rn rm => ⟨.and, [.reg rn, .reg rm]⟩
  | .andImm rn i => ⟨.and, [.reg rn, .num i.toNat]⟩
  | .orReg rn rm => ⟨.or, [.reg rn, .reg rm]⟩
  | .orImm rn i => ⟨.or, [.reg rn, .num i.toNat]⟩
  | .xorReg rn rm => ⟨.xor, [.reg rn, .reg rm]⟩
  | .xorImm rn i => ⟨.xor, [.reg rn, .num i.toNat]⟩
  | .cmpReg rn rm => ⟨.cmp, [.reg rn, .reg rm]⟩
  | .cmpImm rn i => ⟨.cmp, [.reg rn, .num i.toNat]⟩
  | .notReg r => ⟨.not, [.reg r]⟩
  | .shrReg r => ⟨.shr, [.reg r]⟩
  | .rorReg r => ⟨.ror, [.reg r]⟩
  | .asrReg r => ⟨.asr, [.reg r]⟩
  | .rolReg r => ⟨.rol, [.reg r]⟩
  | .jmpReg rn => ⟨.jmp, [.reg rn]⟩
  | .jmpImm i => ⟨.jmp, [.num i.toNat]⟩
  | .jeReg rn => ⟨.je, [.reg rn]⟩
  | .jeImm i => ⟨.je, [.num i.toNat]⟩
  | .jneReg rn => ⟨.jne, [.reg rn]⟩
  | .jneImm i => ⟨.jne, [.num i.toNat]⟩
  | .jaReg rn => ⟨.ja, [.reg rn]⟩
  | .jaImm i => ⟨.ja, [.num i.toNat]⟩
  | .jaeReg rn => ⟨.jae, [.reg rn]⟩
  | .jaeImm i => ⟨.jae, [.num i.toNat]⟩
  | .jbeReg rn => ⟨.jbe, [.reg rn]⟩
  | .jbeImm i => ⟨.jbe, [.num i.toNat]⟩
  | .jbReg rn => ⟨.jb, [.reg rn]⟩
  | .jbImm i => ⟨.jb, [.num i.toNat]⟩
  | .jcReg rn => ⟨.jc, [.reg rn]⟩
  | .jcImm i => ⟨.jc, [.num i.toNat]⟩
  | .jncReg rn => ⟨.jnc, [.reg rn]⟩
  | .jncImm i => ⟨.jnc, [.num i.toNat]⟩
  | .outReg rn => ⟨.out, [.reg rn]⟩
  | .outImm i => ⟨.out, [.num i.toNat]⟩
  | .inReg rn => ⟨.inp, [.reg rn]⟩

/-- The statement of a word that some row matches, whatever its don't-care bits hold (R83). -/
def disassembleWord (w : InstrWord) : Option AsmStatement :=
  match decode w with
  | .ok i => some (disassemble i)
  | .error _ => none

/-! ### Text (R78, R80)

Mnemonics and register names in lower case, hexadecimal digits in upper case, blanks only after the mnemonic and before an
operand (log 20). -/

/-- The spelling of a mnemonic. -/
def Mnemonic.name : Mnemonic → String
  | .mov => "mov"
  | .add => "add"
  | .sub => "sub"
  | .and => "and"
  | .or => "or"
  | .xor => "xor"
  | .cmp => "cmp"
  | .not => "not"
  | .shr => "shr"
  | .ror => "ror"
  | .asr => "asr"
  | .rol => "rol"
  | .jmp => "jmp"
  | .je => "je"
  | .jz => "jz"
  | .jne => "jne"
  | .jnz => "jnz"
  | .ja => "ja"
  | .jae => "jae"
  | .jbe => "jbe"
  | .jb => "jb"
  | .jc => "jc"
  | .jnc => "jnc"
  | .out => "out"
  | .inp => "in"

/-- Every mnemonic. -/
def Mnemonic.all : List Mnemonic :=
  [.mov, .add, .sub, .and, .or, .xor, .cmp, .not, .shr, .ror, .asr, .rol,
   .jmp, .je, .jz, .jne, .jnz, .ja, .jae, .jbe, .jb, .jc, .jnc, .out, .inp]

/-- The mnemonic a name spells. -/
def Mnemonic.ofName (name : List Char) : Option Mnemonic := Mnemonic.all.find? (fun m => m.name.toList == name)

/-- The register a name spells (10_state.md R20). -/
def Reg.ofName : List Char → Option Reg
  | ['r', 'a'] => some .ra
  | ['r', 'b'] => some .rb
  | ['r', 'c'] => some .rc
  | ['r', 'd'] => some .rd
  | _ => none

/-- The value of a digit in a base of 10 or 16. -/
def digitValue (base : Nat) (c : Char) : Option Nat :=
  let d := if '0'.toNat ≤ c.toNat ∧ c.toNat ≤ '9'.toNat then c.toNat - '0'.toNat
    else if 'A'.toNat ≤ c.toNat ∧ c.toNat ≤ 'F'.toNat then c.toNat - 'A'.toNat + 10
    else base
  if d < base then some d else none

/-- The number a run of digits continues, from what stands before it. -/
def digitsValue (base : Nat) : Nat → List Char → Option Nat
  | acc, [] => some acc
  | acc, c :: rest =>
    match digitValue base c with
    | some d => digitsValue base (acc * base + d) rest
    | none => none

/-- A numeral begins with a decimal digit; with the suffix `h` it is hexadecimal, without it decimal (R80). R80 leaves open whether an
assembler accepts a negative numeral; here one is no numeral (log 20, DESIGN CHOICE). -/
def numeralValue (text : List Char) : Option Nat :=
  match text with
  | [] => none
  | c :: _ =>
    match digitValue 10 c with
    | none => none
    | some _ => if text.getLast? = some 'h' then digitsValue 16 0 text.dropLast else digitsValue 10 0 text

/-- An operand in its brackets, without the opening one (R79). -/
def parseBracketed (text : List Char) : Option Operand :=
  if text.getLast? = some ']' then
    match Reg.ofName text.dropLast with
    | some r => some (.memReg r)
    | none => (numeralValue text.dropLast).map .memNum
  else none

/-- An operand as text (R79, R80). -/
def parseOperand (text : List Char) : Option Operand :=
  match text.dropWhile (· == ' ') with
  | '[' :: rest => parseBracketed rest
  | plain =>
    match Reg.ofName plain with
    | some r => some (.reg r)
    | none => (numeralValue plain).map .num

/-- Cut a text at its commas. -/
def splitCommas : List Char → List (List Char)
  | [] => [[]]
  | ',' :: rest => [] :: splitCommas rest
  | c :: rest =>
    match splitCommas rest with
    | [] => [[c]]
    | part :: parts => (c :: part) :: parts

/-- A statement as text: a mnemonic, a blank, and operands separated by commas (R78). -/
def parseStatement (text : List Char) : Option AsmStatement :=
  match Mnemonic.ofName (text.takeWhile (· != ' ')),
      (splitCommas ((text.dropWhile (· != ' ')).dropWhile (· == ' '))).mapM parseOperand with
  | some m, some ops => some ⟨m, ops⟩
  | _, _ => none

/-- The canonical word of a statement as text (R83). -/
def assembleText (text : String) : Option InstrWord :=
  match parseStatement text.toList with
  | some s => (assemble s).map encode
  | none => none

end Sys2Proof.Machine
end

