-- ==== Sys2Proof/WellFormed.lean ====
section
/-!
DEFINITION. Which instruction terms are instructions of the machine. Operands are well formed by their types (Syntax.lean);
what is left to check is the parameter JC_JNC_IMPLEMENTED: when it is false, the four forms of `jc` and `jnc` are no
instructions (spec/44_jumps.md R142, spec/60_exceptions.md R182).
-/

namespace Sys2Proof

/-- Whether an instruction term is one of the machine's under the given parameters (44_jumps.md R142). -/
def Instr.wellFormedUnder (p : Params) : Instr → Bool
  | .movRegReg _ _ | .movRegImm _ _ | .movRegMemReg _ _ | .movRegMemImm _ _ | .movMemRegReg _ _ | .movMemRegImm _ _
  | .addReg _ _ | .addImm _ _ | .subReg _ _ | .subImm _ _ | .andReg _ _ | .andImm _ _
  | .orReg _ _ | .orImm _ _ | .xorReg _ _ | .xorImm _ _ | .cmpReg _ _ | .cmpImm _ _
  | .notReg _ | .shrReg _ | .rorReg _ | .asrReg _ | .rolReg _ | .jmpReg _
  | .jmpImm _ | .jeReg _ | .jeImm _ | .jneReg _ | .jneImm _ | .jaReg _
  | .jaImm _ | .jaeReg _ | .jaeImm _ | .jbeReg _ | .jbeImm _ | .jbReg _
  | .jbImm _ | .outReg _ | .outImm _ | .inReg _ => true
  | .jcReg _ | .jcImm _ | .jncReg _ | .jncImm _ => p.jcJncImplemented

/-- Whether an instruction term is one of the machine's, with the parameters the spec decides. -/
def Instr.wellFormed (i : Instr) : Bool := i.wellFormedUnder Config.decided

end Sys2Proof
end

