-- ==== Sys2Proof/Safety.lean ====
section
/-!
DEFINITION. The terms that claims use: what an instruction leaves unchanged, how a row of the opcode map decodes, what the
tables of spec/10_state.md R21 and spec/20_memory.md R46 list, the final states of spec/60_exceptions.md R187, and the
invariants of the machine.
-/

namespace Sys2Proof.Machine

/-! ### Frames -/

/-- No general register differs. -/
def SameRegs (s t : State) : Prop := ∀ r, t.reg r = s.reg r

/-- No flag differs, and no draw of the flags was made. -/
def SameFlags (s t : State) : Prop := t.zf = s.zf ∧ t.sf = s.sf ∧ t.cf = s.cf ∧ t.flagDraws = s.flagDraws

/-- Every memory cell reads as before. -/
def SameMemory (s t : State) : Prop := ∀ a, t.memRead a = s.memRead a

/-- OUT_PORT, the I/O trace and the draws taken are as before. -/
def SameIo (s t : State) : Prop := t.outPort = s.outPort ∧ t.trace = s.trace ∧ t.inputsTaken = s.inputsTaken

/-- Register `r` holds `v` and every other general register is unchanged. -/
def RegWritten (r : Reg) (v : Byte) (s t : State) : Prop := t.reg r = v ∧ ∀ q, q ≠ r → t.reg q = s.reg q

/-- The cell at `a` reads as `v` and every other cell reads as before. -/
def MemWritten (a v : Byte) (s t : State) : Prop := t.memRead a = v ∧ ∀ b, b ≠ a → t.memRead b = s.memRead b

/-! ### Fields of a word, and rows of the opcode map (30_encoding.md R63, R68) -/

/-- The register of dreg, `instr[9:8]`. -/
def wordDreg (w : InstrWord) : Reg := Reg.ofCode (w.extractLsb' 8 2)

/-- The register of the src field, `instr[1:0]`. -/
def wordSrc (w : InstrWord) : Reg := Reg.ofCode (w.extractLsb' 0 2)

/-- The immediate, `instr[7:0]`. -/
def wordImm (w : InstrWord) : Byte := w.extractLsb' 0 8

/-- Every word of the row, whatever its don't-care bits hold, decodes to the form `f` of it (R66, R68). -/
def RowDecodes (bits mask : InstrWord) (f : InstrWord → Instr) : Prop := ∀ w, w &&& mask = bits → decode w = .ok (f w)

/-- The high bytes that no row of the opcode map has: the ranges of the table in R74. -/
def reservedHighByte (h : Byte) : Bool :=
  let n := h.toNat
  (0x0C ≤ n && n ≤ 0x0F) || (0x1C ≤ n && n ≤ 0x1F) || (0x48 ≤ n && n ≤ 0x4F) || (0x58 ≤ n && n ≤ 0x5F) ||
  (0x74 ≤ n && n ≤ 0x7F) || (0x80 ≤ n && n ≤ 0x9F) || (0xA5 ≤ n && n ≤ 0xA8) || (0xAD ≤ n && n ≤ 0xAF) ||
  (0xB5 ≤ n && n ≤ 0xB8) || (0xBD ≤ n && n ≤ 0xBF) || (0xC8 ≤ n && n ≤ 0xCF) || (0xD8 ≤ n && n ≤ 0xDF) ||
  (0xE0 ≤ n && n ≤ 0xFF)

/-- The bits of an instruction's words that its row marks `-` (R66). -/
def dontCare : Instr → InstrWord
  | .movRegReg _ _ | .movRegMemReg _ _ | .movMemRegReg _ _ | .addReg _ _ | .subReg _ _
  | .andReg _ _ | .orReg _ _ | .xorReg _ _ | .cmpReg _ _ | .jmpReg _
  | .jeReg _ | .jneReg _ | .jaReg _ | .jaeReg _ | .jbeReg _
  | .jbReg _ | .jcReg _ | .jncReg _ => 0x00FC
  | .movRegImm _ _ | .movRegMemImm _ _ | .movMemRegImm _ _ | .addImm _ _ | .subImm _ _
  | .andImm _ _ | .orImm _ _ | .xorImm _ _ | .cmpImm _ _ | .jmpImm _
  | .jeImm _ | .jneImm _ | .jaImm _ | .jaeImm _ | .jbeImm _
  | .jbImm _ | .jcImm _ | .jncImm _ => 0x0000
  | .notReg _ | .shrReg _ | .rorReg _ | .asrReg _ | .rolReg _ => 0x00FF
  | .outReg _ => 0x03FC
  | .outImm _ => 0x0300
  | .inReg _ => 0x10FF

/-! ### What each form writes (10_state.md R21, 20_memory.md R46, 44_jumps.md R142, 45_external_interface.md R170) -/

/-- The register an instruction writes: the last column of the table in 10_state.md R21. -/
def writtenReg : Instr → Option Reg
  | .movRegReg rn _ | .movRegImm rn _ | .movRegMemReg rn _ | .movRegMemImm rn _ | .addReg rn _
  | .addImm rn _ | .subReg rn _ | .subImm rn _ | .andReg rn _ | .andImm rn _
  | .orReg rn _ | .orImm rn _ | .xorReg rn _ | .xorImm rn _ | .notReg rn
  | .shrReg rn | .rorReg rn | .asrReg rn | .rolReg rn | .inReg rn => some rn
  | .movMemRegReg _ _ | .movMemRegImm _ _ | .cmpReg _ _ | .cmpImm _ _ | .jmpReg _ | .jmpImm _
  | .jeReg _ | .jeImm _ | .jneReg _ | .jneImm _ | .jaReg _ | .jaImm _
  | .jaeReg _ | .jaeImm _ | .jbeReg _ | .jbeImm _ | .jbReg _ | .jbImm _
  | .jcReg _ | .jcImm _ | .jncReg _ | .jncImm _ | .outReg _ | .outImm _ => none

/-- The address and the byte an instruction stores (20_memory.md R46): the two store forms of `mov` only. -/
def storedCell (s : State) : Instr → Option (Byte × Byte)
  | .movMemRegReg rn rm => some (s.reg rn, s.reg rm)
  | .movMemRegImm rn i => some (s.reg rn, i)
  | .movRegReg _ _ | .movRegImm _ _ | .movRegMemReg _ _ | .movRegMemImm _ _ | .addReg _ _ | .addImm _ _
  | .subReg _ _ | .subImm _ _ | .andReg _ _ | .andImm _ _ | .orReg _ _ | .orImm _ _
  | .xorReg _ _ | .xorImm _ _ | .cmpReg _ _ | .cmpImm _ _ | .notReg _ | .shrReg _
  | .rorReg _ | .asrReg _ | .rolReg _ | .jmpReg _ | .jmpImm _ | .jeReg _
  | .jeImm _ | .jneReg _ | .jneImm _ | .jaReg _ | .jaImm _ | .jaeReg _
  | .jaeImm _ | .jbeReg _ | .jbeImm _ | .jbReg _ | .jbImm _ | .jcReg _
  | .jcImm _ | .jncReg _ | .jncImm _ | .outReg _ | .outImm _ | .inReg _ => none

/-- Whether an instruction is one of the two forms of `cmp`. -/
def isCompare : Instr → Bool
  | .cmpReg _ _ | .cmpImm _ _ => true
  | .movRegReg _ _ | .movRegImm _ _ | .movRegMemReg _ _ | .movRegMemImm _ _ | .addReg _ _ | .addImm _ _
  | .subReg _ _ | .subImm _ _ | .andReg _ _ | .andImm _ _ | .orReg _ _ | .orImm _ _
  | .xorReg _ _ | .xorImm _ _ | .movMemRegReg _ _ | .movMemRegImm _ _ | .notReg _ | .shrReg _
  | .rorReg _ | .asrReg _ | .rolReg _ | .jmpReg _ | .jmpImm _ | .jeReg _
  | .jeImm _ | .jneReg _ | .jneImm _ | .jaReg _ | .jaImm _ | .jaeReg _
  | .jaeImm _ | .jbeReg _ | .jbeImm _ | .jbReg _ | .jbImm _ | .jcReg _
  | .jcImm _ | .jncReg _ | .jncImm _ | .outReg _ | .outImm _ | .inReg _ => false

/-- Whether an instruction is an ALU instruction other than `cmp`: opcodes 001, 010 and 011 without the two forms of `cmp`. -/
def isOtherAlu : Instr → Bool
  | .addReg _ _ | .addImm _ _ | .subReg _ _ | .subImm _ _ | .andReg _ _ | .andImm _ _
  | .orReg _ _ | .orImm _ _ | .xorReg _ _ | .xorImm _ _ | .notReg _ | .shrReg _
  | .rorReg _ | .asrReg _ | .rolReg _ => true
  | .movRegReg _ _ | .movRegImm _ _ | .movRegMemReg _ _ | .movRegMemImm _ _ | .movMemRegReg _ _ | .movMemRegImm _ _
  | .cmpReg _ _ | .cmpImm _ _ | .jmpReg _ | .jmpImm _ | .jeReg _ | .jeImm _
  | .jneReg _ | .jneImm _ | .jaReg _ | .jaImm _ | .jaeReg _ | .jaeImm _
  | .jbeReg _ | .jbeImm _ | .jbReg _ | .jbImm _ | .jcReg _ | .jcImm _
  | .jncReg _ | .jncImm _ | .outReg _ | .outImm _ | .inReg _ => false

/-- The condition and the target operand of a jump (44_jumps.md R142). -/
def jumpOf : Instr → Option (Cond × Src)
  | .jmpReg rn => some (.always, .reg rn)
  | .jmpImm i => some (.always, .imm i)
  | .jeReg rn => some (.equal, .reg rn)
  | .jeImm i => some (.equal, .imm i)
  | .jneReg rn => some (.notEqual, .reg rn)
  | .jneImm i => some (.notEqual, .imm i)
  | .jaReg rn => some (.above, .reg rn)
  | .jaImm i => some (.above, .imm i)
  | .jaeReg rn => some (.aboveEqual, .reg rn)
  | .jaeImm i => some (.aboveEqual, .imm i)
  | .jbeReg rn => some (.belowEqual, .reg rn)
  | .jbeImm i => some (.belowEqual, .imm i)
  | .jbReg rn => some (.below, .reg rn)
  | .jbImm i => some (.below, .imm i)
  | .jcReg rn => some (.carry, .reg rn)
  | .jcImm i => some (.carry, .imm i)
  | .jncReg rn => some (.notCarry, .reg rn)
  | .jncImm i => some (.notCarry, .imm i)
  | .movRegReg _ _ | .movRegImm _ _ | .movRegMemReg _ _ | .movRegMemImm _ _ | .addReg _ _ | .addImm _ _
  | .subReg _ _ | .subImm _ _ | .andReg _ _ | .andImm _ _ | .orReg _ _ | .orImm _ _
  | .xorReg _ _ | .xorImm _ _ | .cmpReg _ _ | .cmpImm _ _ | .movMemRegReg _ _ | .movMemRegImm _ _
  | .notReg _ | .shrReg _ | .rorReg _ | .asrReg _ | .rolReg _ | .outReg _
  | .outImm _ | .inReg _ => none

/-- The event an instruction adds to the I/O trace (45_external_interface.md R170). -/
def ioEvent (s : State) : Instr → Option IoEvent
  | .outReg rn => some (.output (s.reg rn))
  | .outImm i => some (.output i)
  | .inReg _ => some (.input s.inputValue)
  | .movRegReg _ _ | .movRegImm _ _ | .movRegMemReg _ _ | .movRegMemImm _ _ | .addReg _ _ | .addImm _ _
  | .subReg _ _ | .subImm _ _ | .andReg _ _ | .andImm _ _ | .orReg _ _ | .orImm _ _
  | .xorReg _ _ | .xorImm _ _ | .cmpReg _ _ | .cmpImm _ _ | .movMemRegReg _ _ | .movMemRegImm _ _
  | .notReg _ | .shrReg _ | .rorReg _ | .asrReg _ | .rolReg _ | .jmpReg _
  | .jmpImm _ | .jeReg _ | .jeImm _ | .jneReg _ | .jneImm _ | .jaReg _
  | .jaImm _ | .jaeReg _ | .jaeImm _ | .jbeReg _ | .jbeImm _ | .jbReg _
  | .jbImm _ | .jcReg _ | .jcImm _ | .jncReg _ | .jncImm _ => none

/-- OUT_PORT after an event: the value an `Out` presents, else as before (10_state.md R29). -/
def outPortAfter (old : Byte) : Option IoEvent → Byte
  | some (.output v) => v
  | some (.input _) => old
  | none => old

/-! ### Parameters (00_scope.md R5; log 21) -/

/-- The parameters give this machine its whole address space and its pointer, all of it writable: only PC_STEP,
INSTR_BYTE_ORDER, RESET_PC, FLAGS_WRITERS, JC_JNC_IMPLEMENTED, RESERVED_TREATMENT and the cycle count may differ from the
decided values, and ALEN and MEM_CELLS may be greater. -/
abbrev FullGeometry (p : Params) : Prop :=
  p.cell = 8 ∧ p.processors = 1 ∧ p.privilegeModes = 1 ∧ p.pclen = 8 ∧ 8 ≤ p.alen ∧ 256 ≤ p.memCells ∧ p.readOnlyCells = []

/-! ### Final states (60_exceptions.md R187) -/

/-- A state is final when the instruction at `pc` is `jmp pc` in immediate form (R187). -/
def State.isFinal (s : State) : Prop := s.memRead s.pc = 0xB0 ∧ s.memRead (s.pc + 1) = s.pc

/-! ### Invariants -/

/-- The flags are a pair that `cmp` can produce: never ZF = 1 with CF = 1 (42_compare.md R128). -/
def State.flagsFromCompare (s : State) : Prop := ¬(s.zf = true ∧ s.cf = true)

/-- The value of an `In` event. -/
def IoEvent.inputValue? : IoEvent → Option Byte
  | .input v => some v
  | .output _ => none

/-- The `In` events of the trace are the draws taken, in order (10_state.md R29). -/
def State.inputsRecorded (s : State) : Prop :=
  s.trace.filterMap IoEvent.inputValue? = (List.range s.inputsTaken).map Config.inputByte

/-- The invariant of every step: the memory is in its canonical form, and the trace records every draw. -/
def State.Inv (s : State) : Prop := s.mem.wf ∧ s.inputsRecorded

/-- Two states agree on everything an instruction can read: all but SF and OUT_PORT (10_state.md R26, R30). -/
def AgreeButHidden (s t : State) : Prop :=
  t.ra = s.ra ∧ t.rb = s.rb ∧ t.rc = s.rc ∧ t.rd = s.rd ∧ t.pc = s.pc ∧ t.zf = s.zf ∧ t.cf = s.cf ∧ t.mem = s.mem ∧
  t.trace = s.trace ∧ t.inputsTaken = s.inputsTaken ∧ t.flagDraws = s.flagDraws

/-- The mnemonic a statement is disassembled under: `je` for `jz`, `jne` for `jnz` (30_encoding.md R81). -/
def Mnemonic.canonical (m : Mnemonic) : Mnemonic :=
  if m = .jz then .je else if m = .jnz then .jne else m

end Sys2Proof.Machine
end

