-- ==== Sys2Proof/Certificates/Slice0/Obligations.lean ====
section
/-!
DEFINITION. The statements for the provers, each from the numbered rules of spec/ that its docstring names.
-/

open Sys2Proof Sys2Proof.Machine

/-- 40_move.md R101, `mov rn, rm`: rn takes the old value of rm, `pc` advances by 2, and nothing else changes. -/
def Obligations.MovRegisterToRegister : Prop :=
  RowDecodes 0x0000 0xFC00 (fun w => .movRegReg (wordDreg w) (wordSrc w)) ∧
  (∀ (rn rm : Reg) (s : State), ∃ t, exec (.movRegReg rn rm) s = .next t ∧ RegWritten rn (s.reg rm) s t ∧
    t.pc = s.pc + 2 ∧ SameFlags s t ∧ SameMemory s t ∧ SameIo s t)

/-- 40_move.md R102, `mov rn, i`: rn takes the immediate i, and nothing else but `pc`. -/
def Obligations.MovImmediateToRegister : Prop :=
  RowDecodes 0x1000 0xFC00 (fun w => .movRegImm (wordDreg w) (wordImm w)) ∧
  (∀ (rn : Reg) (i : Byte) (s : State), ∃ t, exec (.movRegImm rn i) s = .next t ∧ RegWritten rn (i) s t ∧
    SameFlags s t ∧ SameMemory s t ∧ SameIo s t)

/-- 40_move.md R103, `mov rn, [rm]`: rn takes the memory cell at the address in rm, and nothing else but `pc`. -/
def Obligations.LoadThroughRegister : Prop :=
  RowDecodes 0x0400 0xFC00 (fun w => .movRegMemReg (wordDreg w) (wordSrc w)) ∧
  (∀ (rn rm : Reg) (s : State), ∃ t, exec (.movRegMemReg rn rm) s = .next t ∧ RegWritten rn (s.memRead (s.reg rm)) s t ∧
    SameFlags s t ∧ SameMemory s t ∧ SameIo s t)

/-- 40_move.md R104, `mov rn, [i]`: rn takes the memory cell at address i, and nothing else but `pc`. -/
def Obligations.LoadFromImmediateAddress : Prop :=
  RowDecodes 0x1400 0xFC00 (fun w => .movRegMemImm (wordDreg w) (wordImm w)) ∧
  (∀ (rn : Reg) (i : Byte) (s : State), ∃ t, exec (.movRegMemImm rn i) s = .next t ∧ RegWritten rn (s.memRead i) s t ∧
    SameFlags s t ∧ SameMemory s t ∧ SameIo s t)

/-- 40_move.md R105, `mov [rn], rm`: the cell at the address in rn takes the value of rm, and nothing else but `pc`.
-/
def Obligations.StoreRegister : Prop :=
  RowDecodes 0x0800 0xFC00 (fun w => .movMemRegReg (wordDreg w) (wordSrc w)) ∧
  (∀ (rn rm : Reg) (s : State), ∃ t, exec (.movMemRegReg rn rm) s = .next t ∧ MemWritten (s.reg rn) (s.reg rm) s t ∧
    SameRegs s t ∧ SameFlags s t ∧ SameIo s t)

/-- 40_move.md R106, `mov [rn], i`: the cell at the address in rn takes i, and nothing else but `pc`. -/
def Obligations.StoreImmediate : Prop :=
  RowDecodes 0x1800 0xFC00 (fun w => .movMemRegImm (wordDreg w) (wordImm w)) ∧
  (∀ (rn : Reg) (i : Byte) (s : State), ∃ t, exec (.movMemRegImm rn i) s = .next t ∧ MemWritten (s.reg rn) (i) s t ∧
    SameRegs s t ∧ SameFlags s t ∧ SameIo s t)

/-- 41_alu_two_operand.md R111, R112: `add` puts dst + src modulo 256 into the destination, the first operand, and
changes nothing else but `pc`. -/
def Obligations.AddStoresSum : Prop :=
  RowDecodes 0x2000 0xFC00 (fun w => .addReg (wordDreg w) (wordSrc w)) ∧
  RowDecodes 0x3000 0xFC00 (fun w => .addImm (wordDreg w) (wordImm w)) ∧
  (∀ (rn rm : Reg) (s : State), ∃ t, exec (.addReg rn rm) s = .next t ∧ RegWritten rn (s.reg rn + s.reg rm) s t ∧
    SameFlags s t ∧ SameMemory s t ∧ SameIo s t) ∧
  (∀ (rn : Reg) (i : Byte) (s : State), ∃ t, exec (.addImm rn i) s = .next t ∧ RegWritten rn (s.reg rn + i) s t ∧
    SameFlags s t ∧ SameMemory s t ∧ SameIo s t)

/-- 41_alu_two_operand.md R113, R114: `sub` puts dst - src modulo 256 into the destination, the first operand, and
changes nothing else but `pc`. -/
def Obligations.SubStoresDifference : Prop :=
  RowDecodes 0x2400 0xFC00 (fun w => .subReg (wordDreg w) (wordSrc w)) ∧
  RowDecodes 0x3400 0xFC00 (fun w => .subImm (wordDreg w) (wordImm w)) ∧
  (∀ (rn rm : Reg) (s : State), ∃ t, exec (.subReg rn rm) s = .next t ∧ RegWritten rn (s.reg rn - s.reg rm) s t ∧
    SameFlags s t ∧ SameMemory s t ∧ SameIo s t) ∧
  (∀ (rn : Reg) (i : Byte) (s : State), ∃ t, exec (.subImm rn i) s = .next t ∧ RegWritten rn (s.reg rn - i) s t ∧
    SameFlags s t ∧ SameMemory s t ∧ SameIo s t)

/-- 41_alu_two_operand.md R115, R116: `and` puts the bitwise and of dst and src into the destination, the first
operand, and changes nothing else but `pc`. -/
def Obligations.AndStoresConjunction : Prop :=
  RowDecodes 0x2800 0xFC00 (fun w => .andReg (wordDreg w) (wordSrc w)) ∧
  RowDecodes 0x3800 0xFC00 (fun w => .andImm (wordDreg w) (wordImm w)) ∧
  (∀ (rn rm : Reg) (s : State), ∃ t, exec (.andReg rn rm) s = .next t ∧ RegWritten rn (s.reg rn &&& s.reg rm) s t ∧
    SameFlags s t ∧ SameMemory s t ∧ SameIo s t) ∧
  (∀ (rn : Reg) (i : Byte) (s : State), ∃ t, exec (.andImm rn i) s = .next t ∧ RegWritten rn (s.reg rn &&& i) s t ∧
    SameFlags s t ∧ SameMemory s t ∧ SameIo s t)

/-- 41_alu_two_operand.md R117, R118: `or` puts the bitwise or of dst and src into the destination, the first operand,
and changes nothing else but `pc`. -/
def Obligations.OrStoresDisjunction : Prop :=
  RowDecodes 0x2C00 0xFC00 (fun w => .orReg (wordDreg w) (wordSrc w)) ∧
  RowDecodes 0x3C00 0xFC00 (fun w => .orImm (wordDreg w) (wordImm w)) ∧
  (∀ (rn rm : Reg) (s : State), ∃ t, exec (.orReg rn rm) s = .next t ∧ RegWritten rn (s.reg rn ||| s.reg rm) s t ∧
    SameFlags s t ∧ SameMemory s t ∧ SameIo s t) ∧
  (∀ (rn : Reg) (i : Byte) (s : State), ∃ t, exec (.orImm rn i) s = .next t ∧ RegWritten rn (s.reg rn ||| i) s t ∧
    SameFlags s t ∧ SameMemory s t ∧ SameIo s t)

/-- 41_alu_two_operand.md R119, R120: `xor` puts the bitwise exclusive or of dst and src into the destination, the
first operand, and changes nothing else but `pc`. -/
def Obligations.XorStoresExclusiveOr : Prop :=
  RowDecodes 0x4000 0xFC00 (fun w => .xorReg (wordDreg w) (wordSrc w)) ∧
  RowDecodes 0x5000 0xFC00 (fun w => .xorImm (wordDreg w) (wordImm w)) ∧
  (∀ (rn rm : Reg) (s : State), ∃ t, exec (.xorReg rn rm) s = .next t ∧ RegWritten rn (s.reg rn ^^^ s.reg rm) s t ∧
    SameFlags s t ∧ SameMemory s t ∧ SameIo s t) ∧
  (∀ (rn : Reg) (i : Byte) (s : State), ∃ t, exec (.xorImm rn i) s = .next t ∧ RegWritten rn (s.reg rn ^^^ i) s t ∧
    SameFlags s t ∧ SameMemory s t ∧ SameIo s t)

/-- 42_compare.md R125 to R127: `cmp` writes the three flags and nothing else but `pc`. The value of SF is the spec's
own choice ("the value `d[7]` is this spec's choice", D7; log 12). -/
def Obligations.CompareSetsFlags : Prop :=
  RowDecodes 0x4400 0xFC00 (fun w => .cmpReg (wordDreg w) (wordSrc w)) ∧
  RowDecodes 0x5400 0xFC00 (fun w => .cmpImm (wordDreg w) (wordImm w)) ∧
  (∀ (rn rm : Reg) (s : State), ∃ t, exec (.cmpReg rn rm) s = .next t ∧ t.zf = decide (s.reg rn = s.reg rm) ∧
    t.cf = decide ((s.reg rn).toNat < (s.reg rm).toNat) ∧ t.sf = (s.reg rn - s.reg rm).msb ∧
    t.flagDraws = s.flagDraws ∧ SameRegs s t ∧ SameMemory s t ∧ SameIo s t) ∧
  (∀ (rn : Reg) (i : Byte) (s : State), ∃ t, exec (.cmpImm rn i) s = .next t ∧ t.zf = decide (s.reg rn = i) ∧
    t.cf = decide ((s.reg rn).toNat < (i).toNat) ∧ t.sf = (s.reg rn - i).msb ∧
    t.flagDraws = s.flagDraws ∧ SameRegs s t ∧ SameMemory s t ∧ SameIo s t)

/-- 43_alu_one_operand.md R131: `not r` leaves the register every bit inverted, and changes nothing else but `pc` (the
spec's own choices D10, D6; log 13, 11). -/
def Obligations.NotInvertsEveryBit : Prop :=
  RowDecodes 0x6000 0xFC00 (fun w => .notReg (wordDreg w)) ∧
  (∀ (r : Reg) (s : State), ∃ t, exec (.notReg r) s = .next t ∧ RegWritten r (~~~s.reg r) s t ∧
    SameFlags s t ∧ SameMemory s t ∧ SameIo s t)

/-- 43_alu_one_operand.md R132: `shr r` leaves the register shifted right by one, zero entering at bit 7, and changes
nothing else but `pc` (the spec's own choices D10, D6; log 13, 11). -/
def Obligations.ShrShiftsInZero : Prop :=
  RowDecodes 0x6400 0xFC00 (fun w => .shrReg (wordDreg w)) ∧
  (∀ (r : Reg) (s : State), ∃ t, exec (.shrReg r) s = .next t ∧ RegWritten r ((s.reg r) >>> 1) s t ∧
    SameFlags s t ∧ SameMemory s t ∧ SameIo s t)

/-- 43_alu_one_operand.md R133: `ror r` leaves the register rotated right by one within its 8 bits, and changes
nothing else but `pc` (the spec's own choices D10, D6; log 13, 11). -/
def Obligations.RorRotatesRightByOne : Prop :=
  RowDecodes 0x6800 0xFC00 (fun w => .rorReg (wordDreg w)) ∧
  (∀ (r : Reg) (s : State), ∃ t, exec (.rorReg r) s = .next t ∧ RegWritten r ((s.reg r).rotateRight 1) s t ∧
    SameFlags s t ∧ SameMemory s t ∧ SameIo s t)

/-- 43_alu_one_operand.md R134: `asr r` leaves the register shifted right by one, bit 7 kept, and changes nothing else
but `pc` (the spec's own choices D10, D6; log 13, 11). -/
def Obligations.AsrKeepsSignBit : Prop :=
  RowDecodes 0x6C00 0xFC00 (fun w => .asrReg (wordDreg w)) ∧
  (∀ (r : Reg) (s : State), ∃ t, exec (.asrReg r) s = .next t ∧ RegWritten r ((s.reg r).sshiftRight 1) s t ∧
    SameFlags s t ∧ SameMemory s t ∧ SameIo s t)

/-- 43_alu_one_operand.md R135: `rol r` leaves the register rotated left by one within its 8 bits, and changes nothing
else but `pc` (the spec's own choices D10, D6; log 13, 11). -/
def Obligations.RolRotatesLeftByOne : Prop :=
  RowDecodes 0x7000 0xFC00 (fun w => .rolReg (wordDreg w)) ∧
  (∀ (r : Reg) (s : State), ∃ t, exec (.rolReg r) s = .next t ∧ RegWritten r ((s.reg r).rotateLeft 1) s t ∧
    SameFlags s t ∧ SameMemory s t ∧ SameIo s t)

/-- 44_jumps.md R144, R145: `jmp` jumps always and writes nothing but `pc`. -/
def Obligations.JmpAlwaysJumps : Prop :=
  RowDecodes 0xA000 0xFF00 (fun w => .jmpReg (wordSrc w)) ∧
  RowDecodes 0xB000 0xFF00 (fun w => .jmpImm (wordImm w)) ∧
  (∀ (rn : Reg) (s : State), ∃ t, exec (.jmpReg rn) s = .next t ∧ t.pc = s.reg rn ∧
    SameRegs s t ∧ SameFlags s t ∧ SameMemory s t ∧ SameIo s t) ∧
  (∀ (i : Byte) (s : State), ∃ t, exec (.jmpImm i) s = .next t ∧ t.pc = i ∧
    SameRegs s t ∧ SameFlags s t ∧ SameMemory s t ∧ SameIo s t)

/-- 44_jumps.md R146, R147: `je` jumps when ZF = 1 and writes nothing but `pc`. -/
def Obligations.JeJumpsWhenZeroSet : Prop :=
  RowDecodes 0xA100 0xFF00 (fun w => .jeReg (wordSrc w)) ∧
  RowDecodes 0xB100 0xFF00 (fun w => .jeImm (wordImm w)) ∧
  (∀ (rn : Reg) (s : State), ∃ t, exec (.jeReg rn) s = .next t ∧ t.pc = (if s.zf = true then s.reg rn else s.pc + 2) ∧
    SameRegs s t ∧ SameFlags s t ∧ SameMemory s t ∧ SameIo s t) ∧
  (∀ (i : Byte) (s : State), ∃ t, exec (.jeImm i) s = .next t ∧ t.pc = (if s.zf = true then i else s.pc + 2) ∧
    SameRegs s t ∧ SameFlags s t ∧ SameMemory s t ∧ SameIo s t)

/-- 44_jumps.md R148, R149: `jne` jumps when ZF = 0 and writes nothing but `pc`. -/
def Obligations.JneJumpsWhenZeroClear : Prop :=
  RowDecodes 0xA900 0xFF00 (fun w => .jneReg (wordSrc w)) ∧
  RowDecodes 0xB900 0xFF00 (fun w => .jneImm (wordImm w)) ∧
  (∀ (rn : Reg) (s : State), ∃ t, exec (.jneReg rn) s = .next t ∧ t.pc = (if s.zf = false then s.reg rn else s.pc + 2) ∧
    SameRegs s t ∧ SameFlags s t ∧ SameMemory s t ∧ SameIo s t) ∧
  (∀ (i : Byte) (s : State), ∃ t, exec (.jneImm i) s = .next t ∧ t.pc = (if s.zf = false then i else s.pc + 2) ∧
    SameRegs s t ∧ SameFlags s t ∧ SameMemory s t ∧ SameIo s t)

/-- 44_jumps.md R150, R151: `ja` jumps when ZF = 0 and CF = 0 and writes nothing but `pc`. -/
def Obligations.JaJumpsWhenAbove : Prop :=
  RowDecodes 0xA200 0xFF00 (fun w => .jaReg (wordSrc w)) ∧
  RowDecodes 0xB200 0xFF00 (fun w => .jaImm (wordImm w)) ∧
  (∀ (rn : Reg) (s : State), ∃ t, exec (.jaReg rn) s = .next t ∧ t.pc = (if s.zf = false ∧ s.cf = false then s.reg rn else s.pc + 2) ∧
    SameRegs s t ∧ SameFlags s t ∧ SameMemory s t ∧ SameIo s t) ∧
  (∀ (i : Byte) (s : State), ∃ t, exec (.jaImm i) s = .next t ∧ t.pc = (if s.zf = false ∧ s.cf = false then i else s.pc + 2) ∧
    SameRegs s t ∧ SameFlags s t ∧ SameMemory s t ∧ SameIo s t)

/-- 44_jumps.md R152, R153: `jae` jumps when ZF = 1 or CF = 0 and writes nothing but `pc` (the condition is the spec's
own choice D13; log 14). -/
def Obligations.JaeJumpsWhenNotBelow : Prop :=
  RowDecodes 0xA300 0xFF00 (fun w => .jaeReg (wordSrc w)) ∧
  RowDecodes 0xB300 0xFF00 (fun w => .jaeImm (wordImm w)) ∧
  (∀ (rn : Reg) (s : State), ∃ t, exec (.jaeReg rn) s = .next t ∧ t.pc = (if s.zf = true ∨ s.cf = false then s.reg rn else s.pc + 2) ∧
    SameRegs s t ∧ SameFlags s t ∧ SameMemory s t ∧ SameIo s t) ∧
  (∀ (i : Byte) (s : State), ∃ t, exec (.jaeImm i) s = .next t ∧ t.pc = (if s.zf = true ∨ s.cf = false then i else s.pc + 2) ∧
    SameRegs s t ∧ SameFlags s t ∧ SameMemory s t ∧ SameIo s t)

/-- 44_jumps.md R154, R155: `jbe` jumps when ZF = 1 or CF = 1 and writes nothing but `pc` (the condition is the spec's
own choice D13; log 14). -/
def Obligations.JbeJumpsWhenNotAbove : Prop :=
  RowDecodes 0xAA00 0xFF00 (fun w => .jbeReg (wordSrc w)) ∧
  RowDecodes 0xBA00 0xFF00 (fun w => .jbeImm (wordImm w)) ∧
  (∀ (rn : Reg) (s : State), ∃ t, exec (.jbeReg rn) s = .next t ∧ t.pc = (if s.zf = true ∨ s.cf = true then s.reg rn else s.pc + 2) ∧
    SameRegs s t ∧ SameFlags s t ∧ SameMemory s t ∧ SameIo s t) ∧
  (∀ (i : Byte) (s : State), ∃ t, exec (.jbeImm i) s = .next t ∧ t.pc = (if s.zf = true ∨ s.cf = true then i else s.pc + 2) ∧
    SameRegs s t ∧ SameFlags s t ∧ SameMemory s t ∧ SameIo s t)

/-- 44_jumps.md R156, R157: `jb` jumps when ZF = 0 and CF = 1 and writes nothing but `pc`. -/
def Obligations.JbJumpsWhenBelow : Prop :=
  RowDecodes 0xAB00 0xFF00 (fun w => .jbReg (wordSrc w)) ∧
  RowDecodes 0xBB00 0xFF00 (fun w => .jbImm (wordImm w)) ∧
  (∀ (rn : Reg) (s : State), ∃ t, exec (.jbReg rn) s = .next t ∧ t.pc = (if s.zf = false ∧ s.cf = true then s.reg rn else s.pc + 2) ∧
    SameRegs s t ∧ SameFlags s t ∧ SameMemory s t ∧ SameIo s t) ∧
  (∀ (i : Byte) (s : State), ∃ t, exec (.jbImm i) s = .next t ∧ t.pc = (if s.zf = false ∧ s.cf = true then i else s.pc + 2) ∧
    SameRegs s t ∧ SameFlags s t ∧ SameMemory s t ∧ SameIo s t)

/-- 44_jumps.md R158, R159: `jc` jumps when CF = 1 and writes nothing but `pc` (the condition is the spec's own choice
D14; log 14). -/
def Obligations.JcJumpsWhenCarrySet : Prop :=
  RowDecodes 0xA400 0xFF00 (fun w => .jcReg (wordSrc w)) ∧
  RowDecodes 0xB400 0xFF00 (fun w => .jcImm (wordImm w)) ∧
  (∀ (rn : Reg) (s : State), ∃ t, exec (.jcReg rn) s = .next t ∧ t.pc = (if s.cf = true then s.reg rn else s.pc + 2) ∧
    SameRegs s t ∧ SameFlags s t ∧ SameMemory s t ∧ SameIo s t) ∧
  (∀ (i : Byte) (s : State), ∃ t, exec (.jcImm i) s = .next t ∧ t.pc = (if s.cf = true then i else s.pc + 2) ∧
    SameRegs s t ∧ SameFlags s t ∧ SameMemory s t ∧ SameIo s t)

/-- 44_jumps.md R160, R161: `jnc` jumps when CF = 0 and writes nothing but `pc` (the condition is the spec's own
choice D14; log 14). -/
def Obligations.JncJumpsWhenCarryClear : Prop :=
  RowDecodes 0xAC00 0xFF00 (fun w => .jncReg (wordSrc w)) ∧
  RowDecodes 0xBC00 0xFF00 (fun w => .jncImm (wordImm w)) ∧
  (∀ (rn : Reg) (s : State), ∃ t, exec (.jncReg rn) s = .next t ∧ t.pc = (if s.cf = false then s.reg rn else s.pc + 2) ∧
    SameRegs s t ∧ SameFlags s t ∧ SameMemory s t ∧ SameIo s t) ∧
  (∀ (i : Byte) (s : State), ∃ t, exec (.jncImm i) s = .next t ∧ t.pc = (if s.cf = false then i else s.pc + 2) ∧
    SameRegs s t ∧ SameFlags s t ∧ SameMemory s t ∧ SameIo s t)

/-- 45_external_interface.md R171: `out rn` presents the register and changes nothing else but `pc`. -/
def Obligations.OutRegisterPresentsIt : Prop :=
  RowDecodes 0xC000 0xFC00 (fun w => .outReg (wordSrc w)) ∧
  (∀ (rn : Reg) (s : State), ∃ t, exec (.outReg rn) s = .next t ∧ t.outPort = s.reg rn ∧
    t.trace = s.trace ++ [.output (s.reg rn)] ∧ t.inputsTaken = s.inputsTaken ∧ SameRegs s t ∧ SameFlags s t ∧ SameMemory s t)

/-- 45_external_interface.md R172: `out i` presents the immediate and changes nothing else but `pc`. -/
def Obligations.OutImmediatePresentsIt : Prop :=
  RowDecodes 0xD000 0xFC00 (fun w => .outImm (wordImm w)) ∧
  (∀ (i : Byte) (s : State), ∃ t, exec (.outImm i) s = .next t ∧ t.outPort = i ∧
    t.trace = s.trace ++ [.output (i)] ∧ t.inputsTaken = s.inputsTaken ∧ SameRegs s t ∧ SameFlags s t ∧ SameMemory s t)

/-- 45_external_interface.md R173: `in rn` puts a draw into rn and records it. That the draw is `Config.inputByte` of
a counter is the model's choice (log 5); the statement holds whatever its value. -/
def Obligations.InTakesOneDraw : Prop :=
  RowDecodes 0xC400 0xEC00 (fun w => .inReg (wordDreg w)) ∧
  (∀ (rn : Reg) (s : State), ∃ t, exec (.inReg rn) s = .next t ∧ RegWritten rn (Config.inputByte s.inputsTaken) s t ∧
    t.trace = s.trace ++ [.input (Config.inputByte s.inputsTaken)] ∧ t.inputsTaken = s.inputsTaken + 1 ∧
    t.outPort = s.outPort ∧ SameFlags s t ∧ SameMemory s t)

/-- 00_scope.md R10 and 20_memory.md R42: a step is the execution of the word at `pc`, high byte first (decisions D2,
D3). -/
def Obligations.StepRunsDecodedInstruction : Prop :=
  ∀ (s : State) (i : Instr), decode (s.memRead s.pc ++ s.memRead (s.pc + 1)) = .ok i → step s = exec i s

/-- 00_scope.md R9, 30_encoding.md R75: every listed word completes, every other word is refused with the word named
(the spec's own choice D11; log 10). -/
def Obligations.StepRefusesExactlyUnlistedWords : Prop :=
  ∀ s : State,
    ((∀ r ∈ opcodeTable, r.matchesWord (s.fetchWord .highFirst) = false) →
      ∃ why, step s = .refused (.reservedEncoding why (s.fetchWord .highFirst))) ∧
    ((∃ r ∈ opcodeTable, r.matchesWord (s.fetchWord .highFirst) = true) → ∃ t, step s = .next t)

/-- 30_encoding.md R67, R68, R83 and 44_jumps.md R142: no bit of an encoding is dropped, for every form and every
operand. -/
def Obligations.DecodeOfEncodeIsTheInstruction : Prop :=
  ∀ (p : Params) (i : Instr), decodeWith p (encode i) = if i.wellFormedUnder p then .ok i else .error .carryJump

/-- 30_encoding.md R66, R83: the assembler emits 0 in every `-` position (the spec's own choice D12). -/
def Obligations.CanonicalWordHasZeroUnusedBits : Prop :=
  ∀ i : Instr, encode i &&& dontCare i = 0

/-- 30_encoding.md R66: the decoder ignores every `-` bit (the spec's own choice D12; log 16). -/
def Obligations.UnusedBitsDoNotMatter : Prop :=
  ∀ (w v : InstrWord) (i : Instr), decode w = .ok i → v &&& ~~~dontCare i = w &&& ~~~dontCare i → decode v = .ok i

/-- 30_encoding.md R68: "No two rows overlap". -/
def Obligations.OpcodeRowsAreDisjoint : Prop :=
  ∀ (w : InstrWord), ∀ r ∈ opcodeTable, ∀ q ∈ opcodeTable, r.matchesWord w = true → q.matchesWord w = true → r = q

/-- 30_encoding.md R74: whether a word is reserved depends only on its high byte, and the ranges are those of the
table. -/
def Obligations.ReservedWordsAreTheListedOnes : Prop :=
  (∀ w : InstrWord, (∃ why, decode w = .error why) ↔ reservedHighByte (highByte w) = true) ∧
  ((List.range 256).filter (fun n => reservedHighByte (BitVec.ofNat 8 n))).length = 130

/-- 20_memory.md R41, 10_state.md R29: the invariant of the model's own data (log 4, 5), kept by every step from every
state that has it. -/
def Obligations.StepKeepsMemoryAndTraceInvariant : Prop :=
  ∀ s t : State, s.Inv → step s = .next t → t.Inv

/-- 10_state.md R32: the invariant holds after reset. That R32 leaves the trace empty is the spec's; that the reset state lists no
memory cell (log 4, 6) and that the counter of the draws is 0, so that the draws recorded agree with it (log 5), is the
model's choice (DESIGN CHOICE). -/
def Obligations.ResetMeetsMemoryAndTraceInvariant : Prop :=
  State.reset.Inv

/-- 42_compare.md R128: the pair ZF = 1, CF = 1 can be present only as an unspecified reset value. -/
def Obligations.StepKeepsFlagsFromCompare : Prop :=
  ∀ s t : State, s.flagsFromCompare → step s = .next t → t.flagsFromCompare

/-- 10_state.md R25: cmp is the only writer of the flags (the spec's own reading D6; log 11). -/
def Obligations.OnlyCompareWritesFlags : Prop :=
  ∀ (i : Instr) (s : State), ∃ t, exec i s = .next t ∧ (isCompare i = false → SameFlags s t)

/-- 10_state.md R21: the last column of its table. -/
def Obligations.OnlyTheListedRegisterIsWritten : Prop :=
  ∀ (i : Instr) (s : State), ∃ t, exec i s = .next t ∧ ∀ r, writtenReg i ≠ some r → t.reg r = s.reg r

/-- 20_memory.md R46, R47: the accesses of each instruction. -/
def Obligations.OnlyStoresChangeMemory : Prop :=
  ∀ (i : Instr) (s : State), ∃ t, exec i s = .next t ∧
    ∀ a, t.memRead a = match storedCell s i with
      | some (b, v) => if a = b then v else s.memRead a
      | none => s.memRead a

/-- 10_state.md R23, 44_jumps.md R140 (the step of 2 and the wrap are the spec's own choice D3; log 15). -/
def Obligations.PcAfterEveryInstruction : Prop :=
  ∀ (i : Instr) (s : State), ∃ t, exec i s = .next t ∧
    t.pc = match jumpOf i with
      | some (c, src) => if c.holds s.zf s.cf then s.srcVal src else s.pc + 2
      | none => s.pc + 2

/-- 10_state.md R29, 20_memory.md R53 (the interface's shape is the spec's own choice D15; log 17). -/
def Obligations.TraceGainsOnlyIoEvents : Prop :=
  ∀ (i : Instr) (s : State), ∃ t, exec i s = .next t ∧
    t.trace = s.trace ++ (ioEvent s i).toList ∧ t.outPort = outPortAfter s.outPort (ioEvent s i)

/-- 60_exceptions.md R187: a final state repeats for ever (the spec's own convention D18). -/
def Obligations.FinalStateNeverChanges : Prop :=
  ∀ (s : State) (k : Nat), s.isFinal → Host.Core.run Sys2Proof.core k s = .next s

/-- 20_memory.md R52, 70_reset_and_hazards.md R204 (the spec's own choice D17; log 19). -/
def Obligations.StoreIsSeenByTheNextFetch : Prop :=
  ∀ (s : State) (i : Instr) (a v : Byte),
    decode (s.memRead s.pc ++ s.memRead (s.pc + 1)) = .ok i → storedCell s i = some (a, v) →
    ∃ t, step s = .next t ∧
      t.fetchWord .highFirst = (if a = s.pc + 2 then v else s.memRead (s.pc + 2)) ++
        (if a = s.pc + 3 then v else s.memRead (s.pc + 3))

/-- 20_memory.md R42, R45 (the spec's own choices D2, D3; log 15). -/
def Obligations.FetchIsHighByteFirstAndWraps : Prop :=
  ∀ s : State, highByte (s.fetchWord .highFirst) = s.memRead s.pc ∧
    lowByte (s.fetchWord .highFirst) = s.memRead (s.pc + 1) ∧
    (s.pc = 0xFF → lowByte (s.fetchWord .highFirst) = s.memRead 0x00)

/-- 20_memory.md R47, R54 (uniform RAM is the spec's own choice D19; log 19). -/
def Obligations.MemoryIsPlainStorage : Prop :=
  ∀ (s : State) (a b v : Byte), (s.memWrite a v).memRead b = if b = a then v else s.memRead b

/-- 10_state.md R26, R30: SF is written but never read, and OUT_PORT is seen only by the environment. Both steps of an `in` are
given the same draw, because draws at equal counters are equal: the model's choice (log 5, DESIGN CHOICE, unsafe for a
comparison of two runs), not the spec's, whose draws are fresh (R29). -/
def Obligations.SignFlagAndOutPortAreUnobservable : Prop :=
  ∀ s t : State, AgreeButHidden s t →
    (∀ s', step s = .next s' → ∃ t', step t = .next t' ∧ AgreeButHidden s' t') ∧
    (∀ r, step s = .refused r → step t = .refused r)

/-- 44_jumps.md R142, its last table (D13, D14; log 14). -/
def Obligations.JumpConditionTruthTable : Prop :=
  let row := fun zf cf => [Cond.always, .equal, .notEqual, .above, .aboveEqual, .belowEqual, .below, .carry,
    .notCarry].map (fun c => c.holds zf cf)
  row false false = [true, false, true, true, true, false, false, false, true] ∧
  row false true = [true, false, true, false, false, true, true, true, false] ∧
  row true false = [true, true, false, false, true, true, false, false, true] ∧
  row true true = [true, true, false, false, true, true, false, true, false]

/-- 44_jumps.md R142, R150 to R161 with 42_compare.md R125 (D13, D14; log 14). -/
def Obligations.JumpsAfterCompareOrderUnsigned : Prop :=
  (∀ (rn rm : Reg) (s : State), ∃ t, exec (.cmpReg rn rm) s = .next t ∧
      Cond.above.holds t.zf t.cf = decide ((s.reg rm).toNat < (s.reg rn).toNat) ∧
      Cond.aboveEqual.holds t.zf t.cf = decide ((s.reg rm).toNat ≤ (s.reg rn).toNat) ∧
      Cond.belowEqual.holds t.zf t.cf = decide ((s.reg rn).toNat ≤ (s.reg rm).toNat) ∧
      Cond.below.holds t.zf t.cf = decide ((s.reg rn).toNat < (s.reg rm).toNat) ∧
      Cond.carry.holds t.zf t.cf = Cond.below.holds t.zf t.cf ∧
      Cond.notCarry.holds t.zf t.cf = Cond.aboveEqual.holds t.zf t.cf) ∧
  (∀ (rn : Reg) (i : Byte) (s : State), ∃ t, exec (.cmpImm rn i) s = .next t ∧
      Cond.above.holds t.zf t.cf = decide ((i).toNat < (s.reg rn).toNat) ∧
      Cond.aboveEqual.holds t.zf t.cf = decide ((i).toNat ≤ (s.reg rn).toNat) ∧
      Cond.belowEqual.holds t.zf t.cf = decide ((s.reg rn).toNat ≤ (i).toNat) ∧
      Cond.below.holds t.zf t.cf = decide ((s.reg rn).toNat < (i).toNat) ∧
      Cond.carry.holds t.zf t.cf = Cond.below.holds t.zf t.cf ∧
      Cond.notCarry.holds t.zf t.cf = Cond.aboveEqual.holds t.zf t.cf)

/-- 44_jumps.md R142, 60_exceptions.md R182: the switch JC_JNC_IMPLEMENTED (D14; log 14). -/
def Obligations.CarryJumpsReservedWhenNotImplemented : Prop :=
  ∀ p : Params, p.jcJncImplemented = false →
    (∀ s : State, FullGeometry p → p.reservedTreatment = .refuse →
      highByte (s.fetchWord p.instrByteOrder) ∈ [0xA4#8, 0xB4#8, 0xAC#8, 0xBC#8] →
      stepWith p s = .refused (.reservedEncoding .carryJump (s.fetchWord p.instrByteOrder))) ∧
    (∀ w : InstrWord, highByte w ∉ [0xA4#8, 0xB4#8, 0xAC#8, 0xBC#8] → decodeWith p w = decode w)

/-- 70_reset_and_hazards.md R200, 10_state.md R32: `pc` and the trace (RESET_PC is the spec's own choice D5; log 15). The model's
choices (DESIGN CHOICE) are that no cell is loaded, where R32 says that memory is the image the platform loaded (log 4, 6),
and that every other field is the same constant under every parameter set: the registers (log 1), the flags (log 2), OUT_PORT
(log 3) and the model's own counters at 0 (log 5, 11). -/
def Obligations.ResetStartsAtZeroWithEmptyTrace : Prop :=
  State.reset.pc = 0x00 ∧ State.reset.trace = [] ∧ (∀ a, State.reset.mem.read? a = none) ∧
  State.reset.fetchWord .highFirst = State.reset.memRead 0x00 ++ State.reset.memRead 0x01 ∧
  (∀ p : Params, State.resetWith p = State.reset.setPc p.resetPc)

/-- 43_alu_one_operand.md R132, R134 (the spec's own choice D10; log 13). -/
def Obligations.RightShiftsHalve : Prop :=
  ∀ (r : Reg) (s : State),
    (∃ t, exec (.shrReg r) s = .next t ∧ (t.reg r).toNat = (s.reg r).toNat / 2) ∧
    (∃ t, exec (.asrReg r) s = .next t ∧ (t.reg r).toInt = (s.reg r).toInt.fdiv 2)

/-- 43_alu_one_operand.md R133, R135 (the spec's own choice D10; log 13). -/
def Obligations.RotationsUndoEachOther : Prop :=
  ∀ (r : Reg) (s : State),
    (∃ t u, exec (.rorReg r) s = .next t ∧ exec (.rolReg r) t = .next u ∧ SameRegs s u ∧ SameFlags s u ∧ SameMemory s u) ∧
    (∃ t u, exec (.rolReg r) s = .next t ∧ exec (.rorReg r) t = .next u ∧ SameRegs s u ∧ SameFlags s u ∧ SameMemory s u)

/-- 30_encoding.md R82: the six idioms. -/
def Obligations.IdiomsHaveTheirEffects : Prop :=
  (encode (.movRegReg .ra .ra) = 0x0000 ∧ ∀ s : State, exec (.movRegReg .ra .ra) s = .next (s.setPc (s.pc + 2))) ∧
  (∀ (r : Reg) (s : State), ∃ t, exec (.addReg r r) s = .next t ∧ t.reg r = (s.reg r) <<< 1) ∧
  (∀ (r : Reg) (s : State), ∃ t, exec (.xorReg r r) s = .next t ∧ t.reg r = 0) ∧
  (∀ (r : Reg) (s : State), ∃ t, exec (.movRegImm r 0) s = .next t ∧ t.reg r = 0) ∧
  (∀ (r : Reg) (s : State), ∃ t u, exec (.notReg r) s = .next t ∧ exec (.addImm r 1) t = .next u ∧ u.reg r = -(s.reg r)) ∧
  (∀ s : State, exec (.jmpImm s.pc) s = .next s) ∧
  (∀ (rn rm : Reg) (a : Byte) (s : State), rn ≠ rm → ∃ t u, exec (.movRegImm rn a) s = .next t ∧
    exec (.movMemRegReg rn rm) t = .next u ∧ MemWritten a (s.reg rm) s u)

/-- 30_encoding.md R83: a disassembler maps every word a row matches back to that row's statement. -/
def Obligations.AssemblingADisassemblyGivesItBack : Prop :=
  (∀ i : Instr, assemble (disassemble i) = some i) ∧
  (∀ (w : InstrWord) (i : Instr), decode w = .ok i → (disassembleWord w).bind assemble = some i)

/-- 30_encoding.md R79, R80, R81: the operand shapes are exactly those of R68; je is jz and jne is jnz. -/
def Obligations.AssemblerAcceptsListedShapesOnly : Prop :=
  ∀ (st : AsmStatement) (i : Instr), assemble st = some i → disassemble i = ⟨st.mnemonic.canonical, st.operands⟩

/-- 00_scope.md R5 with 92_eei_decisions.md D1, D3, D14, D16, D19, D25: away from the decided values ALEN, MEM_CELLS, CELL, PCLEN,
the cells that are not writable, JC_JNC_IMPLEMENTED and the numbers of processors and modes only take steps away. That the model
refuses such a step is the model's choice (log 21, 19). -/
def Obligations.NarrowerParametersOnlyRefuse : Prop :=
  ∀ (p : Params) (s t : State), p.pcStep = 2 → p.flagsWriters = .cmpOnly → p.instrByteOrder = .highFirst →
    p.reservedTreatment = .refuse → stepWith p s = .next t → step s = .next t

/-- 00_scope.md R5, R10 with 92_eei_decisions.md D2, D3, D6, D11: the step under any PC_STEP, INSTR_BYTE_ORDER, FLAGS_WRITERS,
JC_JNC_IMPLEMENTED and RESERVED_TREATMENT. What a draw of the flags is, and what a reserved word does under a treatment other
than `refuse`, are the model's choice (log 11, 10). -/
def Obligations.StepFollowsTheParameters : Prop :=
  ∀ (p : Params) (s : State), FullGeometry p →
    (∀ i, decodeWith p (s.fetchWord p.instrByteOrder) = .ok i →
      ∃ t u, stepWith p s = .next t ∧ exec i s = .next u ∧ SameRegs u t ∧ SameMemory u t ∧ SameIo u t ∧
        t.pc = (match jumpOf i with
          | some (c, src) => if c.holds s.zf s.cf then s.srcVal src else s.pc + p.pcStep
          | none => s.pc + p.pcStep) ∧
        (if p.flagsWriters = .everyAlu ∧ isOtherAlu i = true then
          t.zf = Config.drawnZf s.flagDraws ∧ t.sf = Config.drawnSf s.flagDraws ∧ t.cf = Config.drawnCf s.flagDraws ∧
            t.flagDraws = s.flagDraws + 1
        else SameFlags u t)) ∧
    (∀ why, decodeWith p (s.fetchWord p.instrByteOrder) = .error why →
      stepWith p s = match p.reservedTreatment with
        | .refuse => .refused (.reservedEncoding why (s.fetchWord p.instrByteOrder))
        | .noOperation => .next (s.setPc (s.pc + p.pcStep))
        | .halt => .next s)
end

