-- ==== Sys2Proof/Laws/Decode.lean ====
section
/-!
SUPPORT. A word is its two bytes, and decoding a word is decoding them.
-/

namespace Sys2Proof

@[simp] theorem highByte_append (h l : Byte) : highByte (h ++ l) = h := by
  simp only [highByte]
  ext i hi
  rw [BitVec.getElem_extractLsb']
  exact BitVec.getLsbD_append.trans (by simp [show 8 + i - 8 = i by omega, BitVec.getLsbD_eq_getElem hi])

@[simp] theorem lowByte_append (h l : Byte) : lowByte (h ++ l) = l := by
  simp only [lowByte]
  ext i hi
  rw [BitVec.getElem_extractLsb']
  exact BitVec.getLsbD_append.trans (by simp [hi])

/-- A word is its high byte and its low byte. -/
theorem append_bytes (w : InstrWord) : highByte w ++ lowByte w = w := by
  ext i hi
  simp only [highByte, lowByte, BitVec.getElem_append, BitVec.getElem_extractLsb']
  split
  · simp [BitVec.getLsbD_eq_getElem hi]
  · simp [show 8 + (i - 8) = i by omega, BitVec.getLsbD_eq_getElem hi]

/-- To say something of every word, say it of every pair of bytes. -/
theorem forall_word {P : InstrWord → Prop} (h : ∀ hi lo : Byte, P (hi ++ lo)) (w : InstrWord) : P w :=
  append_bytes w ▸ h (highByte w) (lowByte w)

theorem decodeWith_append (p : Params) (hi lo : Byte) : decodeWith p (hi ++ lo) = decodeBytes p hi lo := by
  simp [decodeWith]

theorem decodeWith_encode (p : Params) (i : Instr) :
    decodeWith p (encode i) = decodeBytes p (encodeHigh i) (encodeLow i) :=
  decodeWith_append p _ _

/-- Whether a word is reserved, and why, depends on its high byte alone (R67, R74). -/
theorem decodeBytes_error_low (p : Params) (hi lo lo' : Byte) (why : ReservedKind) :
    decodeBytes p hi lo = .error why ↔ decodeBytes p hi lo' = .error why := by
  unfold decodeBytes
  split
  · unfold decodeMove
    split <;> simp
  · unfold decodeFirstAlu
    split <;> simp
  · unfold decodeSecondAlu
    split <;> simp
  · rfl
  · rfl
  · unfold decodeJump carryJumpForm
    split
    all_goals first | rfl | simp | (split <;> simp)
  · unfold decodeIo
    split <;> simp
  · rfl

/-- Whether a word is an instruction depends on its high byte alone (R67). -/
theorem decodeBytes_ok_low (p : Params) (hi lo lo' : Byte) :
    (∃ i, decodeBytes p hi lo = .ok i) ↔ ∃ i, decodeBytes p hi lo' = .ok i := by
  have key : ∀ l, (∃ i, decodeBytes p hi l = .ok i) ↔ ∀ why, decodeBytes p hi l ≠ .error why := by
    intro l
    cases decodeBytes p hi l <;> simp
  rw [key, key]
  exact forall_congr' fun why => not_congr (decodeBytes_error_low p hi lo lo' why)

/-- A row whose `-` and operand bits fill the low byte looks at the high byte only (R67). -/
theorem matchesWord_append {q : OpcodeRow} (hm : lowByte q.mask = 0) (hb : lowByte q.bits = 0) (hi lo : Byte) :
    q.matchesWord (hi ++ lo) = (hi &&& highByte q.mask == highByte q.bits) := by
  have hmask : q.mask = highByte q.mask ++ (0 : Byte) := by rw [← hm, append_bytes]
  have hbits : q.bits = highByte q.bits ++ (0 : Byte) := by rw [← hb, append_bytes]
  rw [OpcodeRow.matchesWord, Bool.eq_iff_iff, beq_iff_eq, beq_iff_eq]
  have hand : (hi ++ lo : InstrWord) &&& q.mask = (hi &&& highByte q.mask) ++ (0 : Byte) := by
    conv => lhs; rw [hmask]
    exact (BitVec.and_append).trans (by simp)
  rw [hand]
  constructor
  · intro h
    have := congrArg highByte h
    rwa [highByte_append] at this
  · intro h
    rw [h, ← hbits]

/-- Every row of the opcode map leaves the low byte alone (R67). -/
theorem opcodeTable_low : ∀ q ∈ opcodeTable, lowByte q.mask = 0 ∧ lowByte q.bits = 0 := by decide

@[simp] theorem Reg.ofCode_code (r : Reg) : Reg.ofCode r.code = r := by
  cases r <;> rfl

end Sys2Proof
end

