-- ==== Sys2Proof/Laws/State.lean ====
section
/-!
SUPPORT. One lemma per field and per update of the state, so that no later proof unfolds a record update.
-/

namespace Sys2Proof.Machine

/-! ### `setReg` -/

@[simp] theorem State.setReg_pc (s : State) (r : Reg) (v : Byte) : (s.setReg r v).pc = s.pc := by cases r <;> rfl

@[simp] theorem State.setReg_zf (s : State) (r : Reg) (v : Byte) : (s.setReg r v).zf = s.zf := by cases r <;> rfl

@[simp] theorem State.setReg_sf (s : State) (r : Reg) (v : Byte) : (s.setReg r v).sf = s.sf := by cases r <;> rfl

@[simp] theorem State.setReg_cf (s : State) (r : Reg) (v : Byte) : (s.setReg r v).cf = s.cf := by cases r <;> rfl

@[simp] theorem State.setReg_mem (s : State) (r : Reg) (v : Byte) : (s.setReg r v).mem = s.mem := by cases r <;> rfl

@[simp] theorem State.setReg_outPort (s : State) (r : Reg) (v : Byte) : (s.setReg r v).outPort = s.outPort := by cases r <;> rfl

@[simp] theorem State.setReg_trace (s : State) (r : Reg) (v : Byte) : (s.setReg r v).trace = s.trace := by cases r <;> rfl

@[simp] theorem State.setReg_inputsTaken (s : State) (r : Reg) (v : Byte) : (s.setReg r v).inputsTaken = s.inputsTaken := by cases r <;> rfl

@[simp] theorem State.setReg_flagDraws (s : State) (r : Reg) (v : Byte) : (s.setReg r v).flagDraws = s.flagDraws := by cases r <;> rfl

@[simp] theorem State.setReg_reg_self (s : State) (r : Reg) (v : Byte) : (s.setReg r v).reg r = v := by
  cases r <;> rfl

theorem State.setReg_reg (s : State) (r q : Reg) (v : Byte) :
    (s.setReg r v).reg q = if q = r then v else s.reg q := by
  cases r <;> cases q <;> rfl

@[simp] theorem State.setReg_reg_of_ne (s : State) {r q : Reg} (v : Byte) (h : q ≠ r) :
    (s.setReg r v).reg q = s.reg q := by
  simp [State.setReg_reg, h]

/-! ### `setPc` -/

@[simp] theorem State.setPc_ra (s : State) (target : Byte) : (s.setPc target).ra = s.ra := rfl

@[simp] theorem State.setPc_rb (s : State) (target : Byte) : (s.setPc target).rb = s.rb := rfl

@[simp] theorem State.setPc_rc (s : State) (target : Byte) : (s.setPc target).rc = s.rc := rfl

@[simp] theorem State.setPc_rd (s : State) (target : Byte) : (s.setPc target).rd = s.rd := rfl

@[simp] theorem State.setPc_pc (s : State) (target : Byte) : (s.setPc target).pc = target := rfl

@[simp] theorem State.setPc_zf (s : State) (target : Byte) : (s.setPc target).zf = s.zf := rfl

@[simp] theorem State.setPc_sf (s : State) (target : Byte) : (s.setPc target).sf = s.sf := rfl

@[simp] theorem State.setPc_cf (s : State) (target : Byte) : (s.setPc target).cf = s.cf := rfl

@[simp] theorem State.setPc_mem (s : State) (target : Byte) : (s.setPc target).mem = s.mem := rfl

@[simp] theorem State.setPc_outPort (s : State) (target : Byte) : (s.setPc target).outPort = s.outPort := rfl

@[simp] theorem State.setPc_trace (s : State) (target : Byte) : (s.setPc target).trace = s.trace := rfl

@[simp] theorem State.setPc_inputsTaken (s : State) (target : Byte) : (s.setPc target).inputsTaken = s.inputsTaken := rfl

@[simp] theorem State.setPc_flagDraws (s : State) (target : Byte) : (s.setPc target).flagDraws = s.flagDraws := rfl

/-! ### `setFlags` -/

@[simp] theorem State.setFlags_ra (s : State) (z n c : Bool) : (s.setFlags z n c).ra = s.ra := rfl

@[simp] theorem State.setFlags_rb (s : State) (z n c : Bool) : (s.setFlags z n c).rb = s.rb := rfl

@[simp] theorem State.setFlags_rc (s : State) (z n c : Bool) : (s.setFlags z n c).rc = s.rc := rfl

@[simp] theorem State.setFlags_rd (s : State) (z n c : Bool) : (s.setFlags z n c).rd = s.rd := rfl

@[simp] theorem State.setFlags_pc (s : State) (z n c : Bool) : (s.setFlags z n c).pc = s.pc := rfl

@[simp] theorem State.setFlags_zf (s : State) (z n c : Bool) : (s.setFlags z n c).zf = z := rfl

@[simp] theorem State.setFlags_sf (s : State) (z n c : Bool) : (s.setFlags z n c).sf = n := rfl

@[simp] theorem State.setFlags_cf (s : State) (z n c : Bool) : (s.setFlags z n c).cf = c := rfl

@[simp] theorem State.setFlags_mem (s : State) (z n c : Bool) : (s.setFlags z n c).mem = s.mem := rfl

@[simp] theorem State.setFlags_outPort (s : State) (z n c : Bool) : (s.setFlags z n c).outPort = s.outPort := rfl

@[simp] theorem State.setFlags_trace (s : State) (z n c : Bool) : (s.setFlags z n c).trace = s.trace := rfl

@[simp] theorem State.setFlags_inputsTaken (s : State) (z n c : Bool) : (s.setFlags z n c).inputsTaken = s.inputsTaken := rfl

@[simp] theorem State.setFlags_flagDraws (s : State) (z n c : Bool) : (s.setFlags z n c).flagDraws = s.flagDraws := rfl

/-! ### `drawFlags` -/

@[simp] theorem State.drawFlags_ra (s : State) : s.drawFlags.ra = s.ra := rfl

@[simp] theorem State.drawFlags_rb (s : State) : s.drawFlags.rb = s.rb := rfl

@[simp] theorem State.drawFlags_rc (s : State) : s.drawFlags.rc = s.rc := rfl

@[simp] theorem State.drawFlags_rd (s : State) : s.drawFlags.rd = s.rd := rfl

@[simp] theorem State.drawFlags_pc (s : State) : s.drawFlags.pc = s.pc := rfl

@[simp] theorem State.drawFlags_zf (s : State) : s.drawFlags.zf = Config.drawnZf s.flagDraws := rfl

@[simp] theorem State.drawFlags_sf (s : State) : s.drawFlags.sf = Config.drawnSf s.flagDraws := rfl

@[simp] theorem State.drawFlags_cf (s : State) : s.drawFlags.cf = Config.drawnCf s.flagDraws := rfl

@[simp] theorem State.drawFlags_mem (s : State) : s.drawFlags.mem = s.mem := rfl

@[simp] theorem State.drawFlags_outPort (s : State) : s.drawFlags.outPort = s.outPort := rfl

@[simp] theorem State.drawFlags_trace (s : State) : s.drawFlags.trace = s.trace := rfl

@[simp] theorem State.drawFlags_inputsTaken (s : State) : s.drawFlags.inputsTaken = s.inputsTaken := rfl

@[simp] theorem State.drawFlags_flagDraws (s : State) : s.drawFlags.flagDraws = s.flagDraws + 1 := rfl

/-! ### `memWrite` -/

@[simp] theorem State.memWrite_ra (s : State) (a v : Byte) : (s.memWrite a v).ra = s.ra := rfl

@[simp] theorem State.memWrite_rb (s : State) (a v : Byte) : (s.memWrite a v).rb = s.rb := rfl

@[simp] theorem State.memWrite_rc (s : State) (a v : Byte) : (s.memWrite a v).rc = s.rc := rfl

@[simp] theorem State.memWrite_rd (s : State) (a v : Byte) : (s.memWrite a v).rd = s.rd := rfl

@[simp] theorem State.memWrite_pc (s : State) (a v : Byte) : (s.memWrite a v).pc = s.pc := rfl

@[simp] theorem State.memWrite_zf (s : State) (a v : Byte) : (s.memWrite a v).zf = s.zf := rfl

@[simp] theorem State.memWrite_sf (s : State) (a v : Byte) : (s.memWrite a v).sf = s.sf := rfl

@[simp] theorem State.memWrite_cf (s : State) (a v : Byte) : (s.memWrite a v).cf = s.cf := rfl

@[simp] theorem State.memWrite_mem (s : State) (a v : Byte) : (s.memWrite a v).mem = s.mem.write a.toNat v := rfl

@[simp] theorem State.memWrite_outPort (s : State) (a v : Byte) : (s.memWrite a v).outPort = s.outPort := rfl

@[simp] theorem State.memWrite_trace (s : State) (a v : Byte) : (s.memWrite a v).trace = s.trace := rfl

@[simp] theorem State.memWrite_inputsTaken (s : State) (a v : Byte) : (s.memWrite a v).inputsTaken = s.inputsTaken := rfl

@[simp] theorem State.memWrite_flagDraws (s : State) (a v : Byte) : (s.memWrite a v).flagDraws = s.flagDraws := rfl

/-! ### `ioWrite` -/

@[simp] theorem State.ioWrite_ra (s : State) (v : Byte) : (s.ioWrite v).ra = s.ra := rfl

@[simp] theorem State.ioWrite_rb (s : State) (v : Byte) : (s.ioWrite v).rb = s.rb := rfl

@[simp] theorem State.ioWrite_rc (s : State) (v : Byte) : (s.ioWrite v).rc = s.rc := rfl

@[simp] theorem State.ioWrite_rd (s : State) (v : Byte) : (s.ioWrite v).rd = s.rd := rfl

@[simp] theorem State.ioWrite_pc (s : State) (v : Byte) : (s.ioWrite v).pc = s.pc := rfl

@[simp] theorem State.ioWrite_zf (s : State) (v : Byte) : (s.ioWrite v).zf = s.zf := rfl

@[simp] theorem State.ioWrite_sf (s : State) (v : Byte) : (s.ioWrite v).sf = s.sf := rfl

@[simp] theorem State.ioWrite_cf (s : State) (v : Byte) : (s.ioWrite v).cf = s.cf := rfl

@[simp] theorem State.ioWrite_mem (s : State) (v : Byte) : (s.ioWrite v).mem = s.mem := rfl

@[simp] theorem State.ioWrite_outPort (s : State) (v : Byte) : (s.ioWrite v).outPort = v := rfl

@[simp] theorem State.ioWrite_trace (s : State) (v : Byte) : (s.ioWrite v).trace = s.trace ++ [.output v] := rfl

@[simp] theorem State.ioWrite_inputsTaken (s : State) (v : Byte) : (s.ioWrite v).inputsTaken = s.inputsTaken := rfl

@[simp] theorem State.ioWrite_flagDraws (s : State) (v : Byte) : (s.ioWrite v).flagDraws = s.flagDraws := rfl

/-! ### `takeInput` -/

@[simp] theorem State.takeInput_ra (s : State) : (s.takeInput).ra = s.ra := rfl

@[simp] theorem State.takeInput_rb (s : State) : (s.takeInput).rb = s.rb := rfl

@[simp] theorem State.takeInput_rc (s : State) : (s.takeInput).rc = s.rc := rfl

@[simp] theorem State.takeInput_rd (s : State) : (s.takeInput).rd = s.rd := rfl

@[simp] theorem State.takeInput_pc (s : State) : (s.takeInput).pc = s.pc := rfl

@[simp] theorem State.takeInput_zf (s : State) : (s.takeInput).zf = s.zf := rfl

@[simp] theorem State.takeInput_sf (s : State) : (s.takeInput).sf = s.sf := rfl

@[simp] theorem State.takeInput_cf (s : State) : (s.takeInput).cf = s.cf := rfl

@[simp] theorem State.takeInput_mem (s : State) : (s.takeInput).mem = s.mem := rfl

@[simp] theorem State.takeInput_outPort (s : State) : (s.takeInput).outPort = s.outPort := rfl

@[simp] theorem State.takeInput_trace (s : State) : (s.takeInput).trace = s.trace ++ [.input s.inputValue] := rfl

@[simp] theorem State.takeInput_inputsTaken (s : State) : (s.takeInput).inputsTaken = s.inputsTaken + 1 := rfl

@[simp] theorem State.takeInput_flagDraws (s : State) : (s.takeInput).flagDraws = s.flagDraws := rfl

/-! ### Registers, cells and the draw through the other updates -/

@[simp] theorem State.setPc_reg (s : State) (target : Byte) (q : Reg) : (s.setPc target).reg q = s.reg q := by
  cases q <;> rfl

@[simp] theorem State.setFlags_reg (s : State) (z n c : Bool) (q : Reg) : (s.setFlags z n c).reg q = s.reg q := by
  cases q <;> rfl

@[simp] theorem State.drawFlags_reg (s : State) (q : Reg) : s.drawFlags.reg q = s.reg q := by
  cases q <;> rfl

@[simp] theorem State.memWrite_reg (s : State) (a v : Byte) (q : Reg) : (s.memWrite a v).reg q = s.reg q := by
  cases q <;> rfl

@[simp] theorem State.ioWrite_reg (s : State) (v : Byte) (q : Reg) : (s.ioWrite v).reg q = s.reg q := by
  cases q <;> rfl

@[simp] theorem State.takeInput_reg (s : State)  (q : Reg) : (s.takeInput).reg q = s.reg q := by
  cases q <;> rfl

@[simp] theorem State.setReg_memRead (s : State) (r : Reg) (v : Byte) (a : Byte) : (s.setReg r v).memRead a = s.memRead a := by
  cases r <;> rfl

@[simp] theorem State.setPc_memRead (s : State) (target : Byte) (a : Byte) : (s.setPc target).memRead a = s.memRead a := rfl

@[simp] theorem State.setFlags_memRead (s : State) (z n c : Bool) (a : Byte) : (s.setFlags z n c).memRead a = s.memRead a := rfl

@[simp] theorem State.drawFlags_memRead (s : State) (a : Byte) : s.drawFlags.memRead a = s.memRead a := rfl

@[simp] theorem State.ioWrite_memRead (s : State) (v : Byte) (a : Byte) : (s.ioWrite v).memRead a = s.memRead a := rfl

@[simp] theorem State.takeInput_memRead (s : State)  (a : Byte) : (s.takeInput).memRead a = s.memRead a := rfl

/-! ### The operations that take the parameters, at the decided ones -/

@[simp] theorem Params.hasCell_decided (a : Byte) : Config.decided.hasCell a = true := rfl

@[simp] theorem Params.holdsPointer_decided (n : Nat) : Config.decided.holdsPointer n = true := rfl

@[simp] theorem State.nextPc_decided (s : State) : s.nextPc Config.decided = s.pc + 2 := rfl

@[simp] theorem State.goTo_decided (s : State) (n : Nat) (target : Byte) :
    s.goTo Config.decided n target = .next (s.setPc target) := rfl

@[simp] theorem State.advance_decided (s : State) : s.advance Config.decided = .next (s.setPc (s.pc + 2)) := rfl

@[simp] theorem State.aluFlags_decided (s : State) : s.aluFlags Config.decided = s := rfl

/-! ### The operand forms -/

@[simp] theorem State.srcVal_reg (s : State) (r : Reg) : s.srcVal (.reg r) = s.reg r := rfl

@[simp] theorem State.srcVal_imm (s : State) (i : Byte) : s.srcVal (.imm i) = i := rfl

@[simp] theorem State.srcCell_reg (s : State) (r : Reg) : s.srcCell (.reg r) = s.memRead (s.reg r) := rfl

@[simp] theorem State.srcCell_imm (s : State) (i : Byte) : s.srcCell (.imm i) = s.memRead i := rfl

end Sys2Proof.Machine
end

