-- ==== Sys2Proof/Laws/Memory.lean ====
section
/-!
SUPPORT. The laws of the memory's data: a read after a write, and that a write keeps the canonical form.
-/

namespace Sys2Proof.Machine

theorem Memory.read?_write (m : Memory) (a b : Nat) (v : Byte) :
    (m.write a v).read? b = if b = a then some v else m.read? b := by
  induction m with
  | nil => simp only [Memory.write, Memory.read?, eq_comm]
  | cons c rest ih =>
    by_cases hlt : a < c.1
    · simp only [Memory.write, hlt, if_true, Memory.read?, eq_comm]
    · by_cases heq : a = c.1
      · subst heq
        by_cases hb : b = c.1
        · simp [Memory.write, Memory.read?, hb]
        · simp [Memory.write, Memory.read?, hb, Ne.symm hb]
      · by_cases hc : c.1 = b
        · subst hc
          simp [Memory.write, hlt, heq, Memory.read?, Ne.symm heq]
        · simp [Memory.write, hlt, heq, Memory.read?, hc, ih]

/-- Where the entries of a written memory come from. -/
theorem Memory.mem_write {m : Memory} {a : Nat} {v : Byte} {c : Host.Cell} (h : c ∈ m.write a v) :
    c = (a, v) ∨ c ∈ m := by
  induction m with
  | nil => simpa [Memory.write] using h
  | cons d rest ih =>
    simp only [Memory.write] at h
    split at h
    · simpa using h
    · split at h
      · rcases List.mem_cons.mp h with h | h
        · exact .inl h
        · exact .inr (List.mem_cons_of_mem _ h)
      · rcases List.mem_cons.mp h with h | h
        · exact .inr (h ▸ List.mem_cons_self)
        · exact (ih h).imp id (List.mem_cons_of_mem _)

/-- A write to one of the machine's cells keeps the canonical form. -/
theorem Memory.wf_write {m : Memory} (hm : m.wf) {a : Nat} (ha : a < Config.decided.memCells) (v : Byte) :
    (m.write a v).wf := by
  refine ⟨?_, fun c hc => ?_⟩
  · have hs := hm.1
    clear hm
    induction m with
    | nil => simp [Memory.write]
    | cons d rest ih =>
      have ⟨hd, hr⟩ := List.pairwise_cons.mp hs
      simp only [Memory.write]
      split
      · rename_i hlt
        refine List.pairwise_cons.mpr ⟨fun c hc => ?_, hs⟩
        rcases List.mem_cons.mp hc with rfl | hc
        · exact hlt
        · exact Nat.lt_trans hlt (hd c hc)
      · split
        · rename_i heq
          exact List.pairwise_cons.mpr ⟨fun c hc => heq ▸ hd c hc, hr⟩
        · rename_i hlt heq
          refine List.pairwise_cons.mpr ⟨fun c hc => ?_, ih hr⟩
          rcases Memory.mem_write hc with rfl | hc
          · simp only
            omega
          · exact hd c hc
  · rcases Memory.mem_write hc with rfl | hc
    · exact ha
    · exact hm.2 c hc

/-- Every 8-bit address is one of the 256 cells (20_memory.md R41, R54). -/
theorem byte_lt_memCells (a : Byte) : a.toNat < Config.decided.memCells := a.isLt

/-- `MemWrite` keeps the canonical form. -/
theorem State.memWrite_wf {s : State} (h : s.mem.wf) (a v : Byte) : (s.memWrite a v).mem.wf :=
  Memory.wf_write h (byte_lt_memCells a) v

theorem State.reset_mem_wf : State.reset.mem.wf := by decide

/-- What a cell reads as after `MemWrite` (20_memory.md R47, R54). -/
theorem State.memRead_memWrite (s : State) (a b v : Byte) :
    (s.memWrite a v).memRead b = if b = a then v else s.memRead b := by
  simp only [State.memRead, State.memWrite_mem, Memory.read?_write, ← BitVec.toNat_inj]
  split <;> rfl

end Sys2Proof.Machine
end

