-- ==== Sys2Proof/Laws/Ops.lean ====
section
/-!
SUPPORT. For each shared operation, one lemma that says once everything it does.
-/

namespace Sys2Proof.Machine

/-! ### The parameters -/

/-- An address has a cell exactly when it lies below 2^ALEN and below MEM_CELLS. -/
theorem hasCell_iff (p : Params) (a : Byte) : p.hasCell a = true ↔ a.toNat < 2 ^ p.alen ∧ a.toNat < p.memCells := by
  have ha : a.toNat < 256 := a.isLt
  have hp : 8 ≤ p.alen → a.toNat < 2 ^ p.alen := fun h =>
    Nat.lt_of_lt_of_le ha (Nat.pow_le_pow_right (n := 2) (by omega) h)
  have hm : 256 ≤ p.memCells → a.toNat < p.memCells := Nat.lt_of_lt_of_le ha
  simp only [Params.hasCell, Bool.and_eq_true, Bool.or_eq_true, decide_eq_true_eq]
  exact ⟨fun h => ⟨h.1.elim hp id, h.2.elim hm id⟩, fun h => ⟨.inr h.1, .inr h.2⟩⟩

/-- A pointer write that answers a next state wrote `pc` and nothing else. -/
theorem goTo_next_inv {p : Params} {n : Nat} {a : Byte} {s t : State} (h : s.goTo p n a = .next t) : t = s.setPc a := by
  unfold State.goTo at h
  split at h
  · exact (Host.Outcome.next.inj h).symm
  · cases h

/-- Under parameters of full geometry every fetch gives the word at `pc`. -/
theorem fetch_fullGeometry {p : Params} (h : FullGeometry p) (s : State) : s.fetch p = .ok (s.fetchWord p.instrByteOrder) := by
  obtain ⟨h1, h2, h3, h4, h5, h6, -⟩ := h
  simp [State.fetch, Params.supported, Params.holdsPointer, Params.hasCell, h1, h2, h3, h4, h5, h6]

/-- Under parameters of full geometry every pointer write answers a next state. -/
theorem goTo_fullGeometry {p : Params} (h : FullGeometry p) (n : Nat) (a : Byte) (s : State) :
    s.goTo p n a = .next (s.setPc a) := by
  simp [State.goTo, Params.holdsPointer, h.2.2.2.1]

/-- Under parameters of full geometry every instruction that takes no jump ends at `pc +8 PC_STEP`. -/
theorem advance_fullGeometry {p : Params} (h : FullGeometry p) (s : State) :
    s.advance p = .next (s.setPc (s.pc + p.pcStep)) := goTo_fullGeometry h _ _ s

/-- Under parameters of full geometry every address has a cell. -/
theorem hasCell_fullGeometry {p : Params} (h : FullGeometry p) (a : Byte) : p.hasCell a = true := by
  simp [Params.hasCell, h.2.2.2.2.1, h.2.2.2.2.2.1]

/-- A fetch that gives a word gives the word at `pc`. -/
theorem fetch_ok_inv {p : Params} {s : State} {w : InstrWord} (h : s.fetch p = .ok w) : w = s.fetchWord p.instrByteOrder := by
  unfold State.fetch at h
  repeat' split at h
  all_goals first | (cases h; rfl) | cases h

theorem fetch_decided (s : State) : s.fetch Config.decided = .ok (s.fetchWord .highFirst) := rfl

/-- At the decided parameters each meaning is the one `exec` runs. -/
theorem execUnder_decided (i : Instr) (s : State) : execUnder Config.decided i s = exec i s := by cases i <;> rfl

theorem stepWith_decided (s : State) : stepWith Config.decided s = step s := by
  have h : execUnder Config.decided = exec := funext fun i => funext fun s => execUnder_decided i s
  rw [stepWith, h, step]

/-! ### The shared operations at the decided parameters -/

/-- What an operation that ends by writing one register leaves (40_move.md R100, 41_alu_two_operand.md R110,
43_alu_one_operand.md R130). -/
theorem setReg_advance_effect (r : Reg) (v : Byte) (s : State) :
    ∃ t, (s.setReg r v).advance Config.decided = .next t ∧ RegWritten r v s t ∧ t.pc = s.pc + 2 ∧ SameFlags s t ∧
      SameMemory s t ∧ SameIo s t := by
  refine ⟨_, rfl, ⟨by simp, fun q hq => by simp [hq]⟩, by simp, by simp [SameFlags], fun a => by simp, by simp [SameIo]⟩

theorem moveToReg_decided (rn : Reg) (v : Byte) (s : State) :
    moveToReg Config.decided rn v s = (s.setReg rn v).advance Config.decided := rfl

theorem loadToReg_decided (rn : Reg) (src : Src) (s : State) :
    loadToReg Config.decided rn src s = (s.setReg rn (s.srcCell src)).advance Config.decided := rfl

theorem aluTwo_decided (op : Byte → Byte → Byte) (rn : Reg) (src : Src) (s : State) :
    aluTwo Config.decided op rn src s = (s.setReg rn (op (s.reg rn) (s.srcVal src))).advance Config.decided := rfl

theorem aluOne_decided (op : Byte → Byte) (r : Reg) (s : State) :
    aluOne Config.decided op r s = (s.setReg r (op (s.reg r))).advance Config.decided := rfl

/-- A store changes one cell and nothing else but `pc` (40_move.md R105, R106). -/
theorem moveToMem_effect (rn : Reg) (v : Byte) (s : State) :
    ∃ t, moveToMem Config.decided rn v s = .next t ∧ MemWritten (s.reg rn) v s t ∧ t.pc = s.pc + 2 ∧ SameRegs s t ∧
      SameFlags s t ∧ SameIo s t := by
  refine ⟨_, rfl, ⟨?_, fun b hb => ?_⟩, by simp, fun r => by simp, by simp [SameFlags], by simp [SameIo]⟩
  · simp [State.memRead_memWrite]
  · simp [State.memRead_memWrite, hb]

/-- A comparison writes the flags and nothing else but `pc` (42_compare.md R125). -/
theorem compareWith_effect (rn : Reg) (src : Src) (s : State) :
    ∃ t, compareWith Config.decided rn src s = .next t ∧ t.zf = zeroFlag (s.reg rn) (s.srcVal src) ∧
      t.cf = carryFlag (s.reg rn) (s.srcVal src) ∧ t.sf = signFlag (s.reg rn) (s.srcVal src) ∧
      t.flagDraws = s.flagDraws ∧ t.pc = s.pc + 2 ∧ SameRegs s t ∧ SameMemory s t ∧ SameIo s t := by
  refine ⟨_, rfl, by simp, by simp, by simp, by simp, by simp, fun r => by simp, fun a => by simp, by simp [SameIo]⟩

/-- A jump writes `pc` and nothing else (44_jumps.md R140). -/
theorem jumpIf_effect (c : Cond) (src : Src) (s : State) :
    ∃ t, jumpIf Config.decided c src s = .next t ∧ t.pc = (if c.holds s.zf s.cf then s.srcVal src else s.pc + 2) ∧
      SameRegs s t ∧ SameFlags s t ∧ SameMemory s t ∧ SameIo s t := by
  refine ⟨_, rfl, by simp, fun r => by simp, by simp [SameFlags], fun a => by simp, by simp [SameIo]⟩

/-- An output writes OUT_PORT and the trace and nothing else but `pc` (45_external_interface.md R170). -/
theorem outputFrom_effect (src : Src) (s : State) :
    ∃ t, outputFrom Config.decided src s = .next t ∧ t.outPort = s.srcVal src ∧
      t.trace = s.trace ++ [.output (s.srcVal src)] ∧ t.inputsTaken = s.inputsTaken ∧ t.pc = s.pc + 2 ∧ SameRegs s t ∧
      SameFlags s t ∧ SameMemory s t := by
  refine ⟨_, rfl, by simp, by simp, by simp, by simp, fun r => by simp, by simp [SameFlags], fun a => by simp⟩

/-! ### The step -/

/-- A step that answers a next state ran the instruction it decoded, or met a reserved word that its parameters let pass. -/
theorem stepBy_next_inv {p : Params} {run : Instr → State → Result} {s t : State} (h : stepBy p run s = .next t) :
    ∃ w, s.fetch p = .ok w ∧ ((∃ i, decodeWith p w = .ok i ∧ run i s = .next t) ∨
      ∃ why, decodeWith p w = .error why ∧ reservedOutcome p why w s = .next t) := by
  unfold stepBy at h
  split at h
  · cases h
  · next w hw =>
    split at h
    · next i hi => exact ⟨w, hw, .inl ⟨i, hi, h⟩⟩
    · next why hi => exact ⟨w, hw, .inr ⟨why, hi, h⟩⟩

/-- A step at the decided parameters that answers a next state ran the instruction it decoded. -/
theorem step_next_inv {s t : State} (h : step s = .next t) :
    ∃ i, decode (s.fetchWord .highFirst) = .ok i ∧ exec i s = .next t := by
  obtain ⟨w, hw, ⟨i, hi, he⟩ | ⟨why, -, hr⟩⟩ := stepBy_next_inv h
  · cases hw
    exact ⟨i, hi, he⟩
  · cases hr

end Sys2Proof.Machine
end

