-- ==== Sys2Proof/Laws/PerInstr.lean ====
section
/-!
SUPPORT. The family EncodingRow: the canonical word of an instruction lies in the instruction's own row of the opcode map
and in no other (spec/30_encoding.md R68, R83), one lemma per constructor.
-/

namespace Sys2Proof.Laws.EncodingRow

/-- The rows of the opcode map that the word of `i` matches are those of `i`'s number. -/
def Statement (i : Instr) : Prop := ∀ q ∈ opcodeTable, q.matchesWord (encode i) = (q.num == i.rowNumber)

/-- Whether the rows that a high byte matches are those of the number `n`. -/
def highInRow (n : Nat) (h : Byte) : Bool :=
  opcodeTable.all fun q => (h &&& highByte q.mask == highByte q.bits) == (q.num == n)

/-- It is enough to look at the high byte. -/
theorem of_high {i : Instr} (h : highInRow i.rowNumber (encodeHigh i) = true) : Statement i := by
  intro q hq
  have hlow := opcodeTable_low q hq
  rw [encode, matchesWord_append hlow.1 hlow.2]
  exact eq_of_beq (List.all_eq_true.mp h q hq)

theorem movRegReg (rn rm : Reg) : Statement (.movRegReg rn rm) :=
  of_high (show highInRow 1 (formatM 0 0 0 rn) = true by cases rn <;> decide)

theorem movRegImm (rn : Reg) (i : Byte) : Statement (.movRegImm rn i) :=
  of_high (show highInRow 2 (formatM 1 0 0 rn) = true by cases rn <;> decide)

theorem movRegMemReg (rn rm : Reg) : Statement (.movRegMemReg rn rm) :=
  of_high (show highInRow 3 (formatM 0 0 1 rn) = true by cases rn <;> decide)

theorem movRegMemImm (rn : Reg) (i : Byte) : Statement (.movRegMemImm rn i) :=
  of_high (show highInRow 4 (formatM 1 0 1 rn) = true by cases rn <;> decide)

theorem movMemRegReg (rn rm : Reg) : Statement (.movMemRegReg rn rm) :=
  of_high (show highInRow 5 (formatM 0 1 0 rn) = true by cases rn <;> decide)

theorem movMemRegImm (rn : Reg) (i : Byte) : Statement (.movMemRegImm rn i) :=
  of_high (show highInRow 6 (formatM 1 1 0 rn) = true by cases rn <;> decide)

theorem addReg (rn rm : Reg) : Statement (.addReg rn rm) :=
  of_high (show highInRow 7 (formatA2 0b001 0 0b00 rn) = true by cases rn <;> decide)

theorem addImm (rn : Reg) (i : Byte) : Statement (.addImm rn i) :=
  of_high (show highInRow 8 (formatA2 0b001 1 0b00 rn) = true by cases rn <;> decide)

theorem subReg (rn rm : Reg) : Statement (.subReg rn rm) :=
  of_high (show highInRow 9 (formatA2 0b001 0 0b01 rn) = true by cases rn <;> decide)

theorem subImm (rn : Reg) (i : Byte) : Statement (.subImm rn i) :=
  of_high (show highInRow 10 (formatA2 0b001 1 0b01 rn) = true by cases rn <;> decide)

theorem andReg (rn rm : Reg) : Statement (.andReg rn rm) :=
  of_high (show highInRow 11 (formatA2 0b001 0 0b10 rn) = true by cases rn <;> decide)

theorem andImm (rn : Reg) (i : Byte) : Statement (.andImm rn i) :=
  of_high (show highInRow 12 (formatA2 0b001 1 0b10 rn) = true by cases rn <;> decide)

theorem orReg (rn rm : Reg) : Statement (.orReg rn rm) :=
  of_high (show highInRow 13 (formatA2 0b001 0 0b11 rn) = true by cases rn <;> decide)

theorem orImm (rn : Reg) (i : Byte) : Statement (.orImm rn i) :=
  of_high (show highInRow 14 (formatA2 0b001 1 0b11 rn) = true by cases rn <;> decide)

theorem xorReg (rn rm : Reg) : Statement (.xorReg rn rm) :=
  of_high (show highInRow 15 (formatA2 0b010 0 0b00 rn) = true by cases rn <;> decide)

theorem xorImm (rn : Reg) (i : Byte) : Statement (.xorImm rn i) :=
  of_high (show highInRow 16 (formatA2 0b010 1 0b00 rn) = true by cases rn <;> decide)

theorem cmpReg (rn rm : Reg) : Statement (.cmpReg rn rm) :=
  of_high (show highInRow 17 (formatA2 0b010 0 0b01 rn) = true by cases rn <;> decide)

theorem cmpImm (rn : Reg) (i : Byte) : Statement (.cmpImm rn i) :=
  of_high (show highInRow 18 (formatA2 0b010 1 0b01 rn) = true by cases rn <;> decide)

theorem notReg (r : Reg) : Statement (.notReg r) :=
  of_high (show highInRow 19 (formatA1 0b000 r) = true by cases r <;> decide)

theorem shrReg (r : Reg) : Statement (.shrReg r) :=
  of_high (show highInRow 20 (formatA1 0b001 r) = true by cases r <;> decide)

theorem rorReg (r : Reg) : Statement (.rorReg r) :=
  of_high (show highInRow 21 (formatA1 0b010 r) = true by cases r <;> decide)

theorem asrReg (r : Reg) : Statement (.asrReg r) :=
  of_high (show highInRow 22 (formatA1 0b011 r) = true by cases r <;> decide)

theorem rolReg (r : Reg) : Statement (.rolReg r) :=
  of_high (show highInRow 23 (formatA1 0b100 r) = true by cases r <;> decide)

theorem jmpReg (rn : Reg) : Statement (.jmpReg rn) :=
  of_high (show highInRow 24 (formatJ 0 0b0000) = true by decide)

theorem jmpImm (i : Byte) : Statement (.jmpImm i) :=
  of_high (show highInRow 25 (formatJ 1 0b0000) = true by decide)

theorem jeReg (rn : Reg) : Statement (.jeReg rn) :=
  of_high (show highInRow 26 (formatJ 0 0b0001) = true by decide)

theorem jeImm (i : Byte) : Statement (.jeImm i) :=
  of_high (show highInRow 27 (formatJ 1 0b0001) = true by decide)

theorem jneReg (rn : Reg) : Statement (.jneReg rn) :=
  of_high (show highInRow 28 (formatJ 0 0b1001) = true by decide)

theorem jneImm (i : Byte) : Statement (.jneImm i) :=
  of_high (show highInRow 29 (formatJ 1 0b1001) = true by decide)

theorem jaReg (rn : Reg) : Statement (.jaReg rn) :=
  of_high (show highInRow 30 (formatJ 0 0b0010) = true by decide)

theorem jaImm (i : Byte) : Statement (.jaImm i) :=
  of_high (show highInRow 31 (formatJ 1 0b0010) = true by decide)

theorem jaeReg (rn : Reg) : Statement (.jaeReg rn) :=
  of_high (show highInRow 32 (formatJ 0 0b0011) = true by decide)

theorem jaeImm (i : Byte) : Statement (.jaeImm i) :=
  of_high (show highInRow 33 (formatJ 1 0b0011) = true by decide)

theorem jbeReg (rn : Reg) : Statement (.jbeReg rn) :=
  of_high (show highInRow 34 (formatJ 0 0b1010) = true by decide)

theorem jbeImm (i : Byte) : Statement (.jbeImm i) :=
  of_high (show highInRow 35 (formatJ 1 0b1010) = true by decide)

theorem jbReg (rn : Reg) : Statement (.jbReg rn) :=
  of_high (show highInRow 36 (formatJ 0 0b1011) = true by decide)

theorem jbImm (i : Byte) : Statement (.jbImm i) :=
  of_high (show highInRow 37 (formatJ 1 0b1011) = true by decide)

theorem jcReg (rn : Reg) : Statement (.jcReg rn) :=
  of_high (show highInRow 38 (formatJ 0 0b0100) = true by decide)

theorem jcImm (i : Byte) : Statement (.jcImm i) :=
  of_high (show highInRow 39 (formatJ 1 0b0100) = true by decide)

theorem jncReg (rn : Reg) : Statement (.jncReg rn) :=
  of_high (show highInRow 40 (formatJ 0 0b1100) = true by decide)

theorem jncImm (i : Byte) : Statement (.jncImm i) :=
  of_high (show highInRow 41 (formatJ 1 0b1100) = true by decide)

theorem outReg (rn : Reg) : Statement (.outReg rn) :=
  of_high (show highInRow 42 (formatIo 0 0b00 0b00) = true by decide)

theorem outImm (i : Byte) : Statement (.outImm i) :=
  of_high (show highInRow 43 (formatIo 1 0b00 0b00) = true by decide)

theorem inReg (rn : Reg) : Statement (.inReg rn) :=
  of_high (show highInRow 44 (formatIo 0 0b01 rn.code) = true by cases rn <;> decide)

end Sys2Proof.Laws.EncodingRow
end

