-- ==== Sys2Proof/Tests/Slice0.lean ====
section
/-!
SUPPORT. The model's own tests. Expected results come from spec/: the encoding rows of 30_encoding.md R68, the worked example
of each instruction rule (files 40 to 45) and the vectors of 95_test_vectors.md; and one witness for the hypotheses of each
statement.
-/

namespace Sys2Proof.Tests

open Sys2Proof.Machine

/-! ### WellFormed: the one check refuses the four forms it is about (44_jumps.md R142), and nothing else -/

def withoutCarryJumps : Params := { jcJncImplemented := false }

theorem test_wellFormed_refuses_carry_jumps :
    (Instr.jcReg .ra).wellFormedUnder withoutCarryJumps = false ∧
    (Instr.jcImm 0x10).wellFormedUnder withoutCarryJumps = false ∧
    (Instr.jncReg .rd).wellFormedUnder withoutCarryJumps = false ∧
    (Instr.jncImm 0xFF).wellFormedUnder withoutCarryJumps = false := by decide

theorem test_wellFormed_accepts :
    (Instr.jcImm 0x10).wellFormed = true ∧ (Instr.jbImm 0x10).wellFormedUnder withoutCarryJumps = true := by decide

/-! ### Decoding: for each row the word of its rule's worked example, and the row's highest word, don't-care bits all 1.
Each theorem is also the witness that words of the row exist, at both ends of its operands. -/

theorem test_row_movRegReg : (0x0001#16 &&& 0xFC00 = 0x0000 ∧ decode 0x0001 = .ok (.movRegReg .ra .rb)) ∧
    (0x03FF#16 &&& 0xFC00 = 0x0000 ∧ decode 0x03FF = .ok (.movRegReg .rd .rd)) := by decide

theorem test_row_movRegImm : (0x1035#16 &&& 0xFC00 = 0x1000 ∧ decode 0x1035 = .ok (.movRegImm .ra 0x35)) ∧
    (0x13FF#16 &&& 0xFC00 = 0x1000 ∧ decode 0x13FF = .ok (.movRegImm .rd 0xFF)) := by decide

theorem test_row_movRegMemReg : (0x0700#16 &&& 0xFC00 = 0x0400 ∧ decode 0x0700 = .ok (.movRegMemReg .rd .ra)) ∧
    (0x07FF#16 &&& 0xFC00 = 0x0400 ∧ decode 0x07FF = .ok (.movRegMemReg .rd .rd)) := by decide

theorem test_row_movRegMemImm : (0x1712#16 &&& 0xFC00 = 0x1400 ∧ decode 0x1712 = .ok (.movRegMemImm .rd 0x12)) ∧
    (0x17FF#16 &&& 0xFC00 = 0x1400 ∧ decode 0x17FF = .ok (.movRegMemImm .rd 0xFF)) := by decide

theorem test_row_movMemRegReg : (0x0902#16 &&& 0xFC00 = 0x0800 ∧ decode 0x0902 = .ok (.movMemRegReg .rb .rc)) ∧
    (0x0BFF#16 &&& 0xFC00 = 0x0800 ∧ decode 0x0BFF = .ok (.movMemRegReg .rd .rd)) := by decide

theorem test_row_movMemRegImm : (0x1907#16 &&& 0xFC00 = 0x1800 ∧ decode 0x1907 = .ok (.movMemRegImm .rb 0x07)) ∧
    (0x1BFF#16 &&& 0xFC00 = 0x1800 ∧ decode 0x1BFF = .ok (.movMemRegImm .rd 0xFF)) := by decide

theorem test_row_addReg : (0x2001#16 &&& 0xFC00 = 0x2000 ∧ decode 0x2001 = .ok (.addReg .ra .rb)) ∧
    (0x23FF#16 &&& 0xFC00 = 0x2000 ∧ decode 0x23FF = .ok (.addReg .rd .rd)) := by decide

theorem test_row_addImm : (0x3201#16 &&& 0xFC00 = 0x3000 ∧ decode 0x3201 = .ok (.addImm .rc 0x01)) ∧
    (0x33FF#16 &&& 0xFC00 = 0x3000 ∧ decode 0x33FF = .ok (.addImm .rd 0xFF)) := by decide

theorem test_row_subReg : (0x2401#16 &&& 0xFC00 = 0x2400 ∧ decode 0x2401 = .ok (.subReg .ra .rb)) ∧
    (0x27FF#16 &&& 0xFC00 = 0x2400 ∧ decode 0x27FF = .ok (.subReg .rd .rd)) := by decide

theorem test_row_subImm : (0x3403#16 &&& 0xFC00 = 0x3400 ∧ decode 0x3403 = .ok (.subImm .ra 0x03)) ∧
    (0x37FF#16 &&& 0xFC00 = 0x3400 ∧ decode 0x37FF = .ok (.subImm .rd 0xFF)) := by decide

theorem test_row_andReg : (0x2801#16 &&& 0xFC00 = 0x2800 ∧ decode 0x2801 = .ok (.andReg .ra .rb)) ∧
    (0x2BFF#16 &&& 0xFC00 = 0x2800 ∧ decode 0x2BFF = .ok (.andReg .rd .rd)) := by decide

theorem test_row_andImm : (0x3B55#16 &&& 0xFC00 = 0x3800 ∧ decode 0x3B55 = .ok (.andImm .rd 0x55)) ∧
    (0x3BFF#16 &&& 0xFC00 = 0x3800 ∧ decode 0x3BFF = .ok (.andImm .rd 0xFF)) := by decide

theorem test_row_orReg : (0x2C01#16 &&& 0xFC00 = 0x2C00 ∧ decode 0x2C01 = .ok (.orReg .ra .rb)) ∧
    (0x2FFF#16 &&& 0xFC00 = 0x2C00 ∧ decode 0x2FFF = .ok (.orReg .rd .rd)) := by decide

theorem test_row_orImm : (0x3D80#16 &&& 0xFC00 = 0x3C00 ∧ decode 0x3D80 = .ok (.orImm .rb 0x80)) ∧
    (0x3FFF#16 &&& 0xFC00 = 0x3C00 ∧ decode 0x3FFF = .ok (.orImm .rd 0xFF)) := by decide

theorem test_row_xorReg : (0x4001#16 &&& 0xFC00 = 0x4000 ∧ decode 0x4001 = .ok (.xorReg .ra .rb)) ∧
    (0x43FF#16 &&& 0xFC00 = 0x4000 ∧ decode 0x43FF = .ok (.xorReg .rd .rd)) := by decide

theorem test_row_xorImm : (0x52FF#16 &&& 0xFC00 = 0x5000 ∧ decode 0x52FF = .ok (.xorImm .rc 0xFF)) ∧
    (0x53FF#16 &&& 0xFC00 = 0x5000 ∧ decode 0x53FF = .ok (.xorImm .rd 0xFF)) := by decide

theorem test_row_cmpReg : (0x4401#16 &&& 0xFC00 = 0x4400 ∧ decode 0x4401 = .ok (.cmpReg .ra .rb)) ∧
    (0x47FF#16 &&& 0xFC00 = 0x4400 ∧ decode 0x47FF = .ok (.cmpReg .rd .rd)) := by decide

theorem test_row_cmpImm : (0x5500#16 &&& 0xFC00 = 0x5400 ∧ decode 0x5500 = .ok (.cmpImm .rb 0x00)) ∧
    (0x57FF#16 &&& 0xFC00 = 0x5400 ∧ decode 0x57FF = .ok (.cmpImm .rd 0xFF)) := by decide

theorem test_row_notReg : (0x6000#16 &&& 0xFC00 = 0x6000 ∧ decode 0x6000 = .ok (.notReg .ra)) ∧
    (0x63FF#16 &&& 0xFC00 = 0x6000 ∧ decode 0x63FF = .ok (.notReg .rd)) := by decide

theorem test_row_shrReg : (0x6400#16 &&& 0xFC00 = 0x6400 ∧ decode 0x6400 = .ok (.shrReg .ra)) ∧
    (0x67FF#16 &&& 0xFC00 = 0x6400 ∧ decode 0x67FF = .ok (.shrReg .rd)) := by decide

theorem test_row_rorReg : (0x6900#16 &&& 0xFC00 = 0x6800 ∧ decode 0x6900 = .ok (.rorReg .rb)) ∧
    (0x6BFF#16 &&& 0xFC00 = 0x6800 ∧ decode 0x6BFF = .ok (.rorReg .rd)) := by decide

theorem test_row_asrReg : (0x6E00#16 &&& 0xFC00 = 0x6C00 ∧ decode 0x6E00 = .ok (.asrReg .rc)) ∧
    (0x6FFF#16 &&& 0xFC00 = 0x6C00 ∧ decode 0x6FFF = .ok (.asrReg .rd)) := by decide

theorem test_row_rolReg : (0x7300#16 &&& 0xFC00 = 0x7000 ∧ decode 0x7300 = .ok (.rolReg .rd)) ∧
    (0x73FF#16 &&& 0xFC00 = 0x7000 ∧ decode 0x73FF = .ok (.rolReg .rd)) := by decide

theorem test_row_jmpReg : (0xA003#16 &&& 0xFF00 = 0xA000 ∧ decode 0xA003 = .ok (.jmpReg .rd)) ∧
    (0xA0FF#16 &&& 0xFF00 = 0xA000 ∧ decode 0xA0FF = .ok (.jmpReg .rd)) := by decide

theorem test_row_jmpImm : (0xB00E#16 &&& 0xFF00 = 0xB000 ∧ decode 0xB00E = .ok (.jmpImm 0x0E)) ∧
    (0xB0FF#16 &&& 0xFF00 = 0xB000 ∧ decode 0xB0FF = .ok (.jmpImm 0xFF)) := by decide

theorem test_row_jeReg : (0xA102#16 &&& 0xFF00 = 0xA100 ∧ decode 0xA102 = .ok (.jeReg .rc)) ∧
    (0xA1FF#16 &&& 0xFF00 = 0xA100 ∧ decode 0xA1FF = .ok (.jeReg .rd)) := by decide

theorem test_row_jeImm : (0xB130#16 &&& 0xFF00 = 0xB100 ∧ decode 0xB130 = .ok (.jeImm 0x30)) ∧
    (0xB1FF#16 &&& 0xFF00 = 0xB100 ∧ decode 0xB1FF = .ok (.jeImm 0xFF)) := by decide

theorem test_row_jneReg : (0xA903#16 &&& 0xFF00 = 0xA900 ∧ decode 0xA903 = .ok (.jneReg .rd)) ∧
    (0xA9FF#16 &&& 0xFF00 = 0xA900 ∧ decode 0xA9FF = .ok (.jneReg .rd)) := by decide

theorem test_row_jneImm : (0xB904#16 &&& 0xFF00 = 0xB900 ∧ decode 0xB904 = .ok (.jneImm 0x04)) ∧
    (0xB9FF#16 &&& 0xFF00 = 0xB900 ∧ decode 0xB9FF = .ok (.jneImm 0xFF)) := by decide

theorem test_row_jaReg : (0xA201#16 &&& 0xFF00 = 0xA200 ∧ decode 0xA201 = .ok (.jaReg .rb)) ∧
    (0xA2FF#16 &&& 0xFF00 = 0xA200 ∧ decode 0xA2FF = .ok (.jaReg .rd)) := by decide

theorem test_row_jaImm : (0xB20E#16 &&& 0xFF00 = 0xB200 ∧ decode 0xB20E = .ok (.jaImm 0x0E)) ∧
    (0xB2FF#16 &&& 0xFF00 = 0xB200 ∧ decode 0xB2FF = .ok (.jaImm 0xFF)) := by decide

theorem test_row_jaeReg : (0xA300#16 &&& 0xFF00 = 0xA300 ∧ decode 0xA300 = .ok (.jaeReg .ra)) ∧
    (0xA3FF#16 &&& 0xFF00 = 0xA300 ∧ decode 0xA3FF = .ok (.jaeReg .rd)) := by decide

theorem test_row_jaeImm : (0xB30A#16 &&& 0xFF00 = 0xB300 ∧ decode 0xB30A = .ok (.jaeImm 0x0A)) ∧
    (0xB3FF#16 &&& 0xFF00 = 0xB300 ∧ decode 0xB3FF = .ok (.jaeImm 0xFF)) := by decide

theorem test_row_jbeReg : (0xAA02#16 &&& 0xFF00 = 0xAA00 ∧ decode 0xAA02 = .ok (.jbeReg .rc)) ∧
    (0xAAFF#16 &&& 0xFF00 = 0xAA00 ∧ decode 0xAAFF = .ok (.jbeReg .rd)) := by decide

theorem test_row_jbeImm : (0xBA20#16 &&& 0xFF00 = 0xBA00 ∧ decode 0xBA20 = .ok (.jbeImm 0x20)) ∧
    (0xBAFF#16 &&& 0xFF00 = 0xBA00 ∧ decode 0xBAFF = .ok (.jbeImm 0xFF)) := by decide

theorem test_row_jbReg : (0xAB01#16 &&& 0xFF00 = 0xAB00 ∧ decode 0xAB01 = .ok (.jbReg .rb)) ∧
    (0xABFF#16 &&& 0xFF00 = 0xAB00 ∧ decode 0xABFF = .ok (.jbReg .rd)) := by decide

theorem test_row_jbImm : (0xBB40#16 &&& 0xFF00 = 0xBB00 ∧ decode 0xBB40 = .ok (.jbImm 0x40)) ∧
    (0xBBFF#16 &&& 0xFF00 = 0xBB00 ∧ decode 0xBBFF = .ok (.jbImm 0xFF)) := by decide

theorem test_row_jcReg : (0xA400#16 &&& 0xFF00 = 0xA400 ∧ decode 0xA400 = .ok (.jcReg .ra)) ∧
    (0xA4FF#16 &&& 0xFF00 = 0xA400 ∧ decode 0xA4FF = .ok (.jcReg .rd)) := by decide

theorem test_row_jcImm : (0xB4F0#16 &&& 0xFF00 = 0xB400 ∧ decode 0xB4F0 = .ok (.jcImm 0xF0)) ∧
    (0xB4FF#16 &&& 0xFF00 = 0xB400 ∧ decode 0xB4FF = .ok (.jcImm 0xFF)) := by decide

theorem test_row_jncReg : (0xAC01#16 &&& 0xFF00 = 0xAC00 ∧ decode 0xAC01 = .ok (.jncReg .rb)) ∧
    (0xACFF#16 &&& 0xFF00 = 0xAC00 ∧ decode 0xACFF = .ok (.jncReg .rd)) := by decide

theorem test_row_jncImm : (0xBC10#16 &&& 0xFF00 = 0xBC00 ∧ decode 0xBC10 = .ok (.jncImm 0x10)) ∧
    (0xBCFF#16 &&& 0xFF00 = 0xBC00 ∧ decode 0xBCFF = .ok (.jncImm 0xFF)) := by decide

theorem test_row_outReg : (0xC000#16 &&& 0xFC00 = 0xC000 ∧ decode 0xC000 = .ok (.outReg .ra)) ∧
    (0xC3FF#16 &&& 0xFC00 = 0xC000 ∧ decode 0xC3FF = .ok (.outReg .rd)) := by decide

theorem test_row_outImm : (0xD0AA#16 &&& 0xFC00 = 0xD000 ∧ decode 0xD0AA = .ok (.outImm 0xAA)) ∧
    (0xD3FF#16 &&& 0xFC00 = 0xD000 ∧ decode 0xD3FF = .ok (.outImm 0xFF)) := by decide

theorem test_row_inReg : (0xC500#16 &&& 0xEC00 = 0xC400 ∧ decode 0xC500 = .ok (.inReg .rb)) ∧
    (0xD7FF#16 &&& 0xEC00 = 0xC400 ∧ decode 0xD7FF = .ok (.inReg .rd)) := by decide

/-- Words of each group of reserved encodings (30_encoding.md R74; 95_test_vectors.md V10, V22, V33, V53, V66, V74). -/
theorem test_reserved_words :
    decode 0x0C00 = .error .memoryToMemory ∧ decode 0x1FFF = .error .memoryToMemory ∧
    decode 0x4800 = .error .aluOp ∧ decode 0x5C00 = .error .aluOp ∧
    decode 0x7400 = .error .oneOperandOp ∧ decode 0x7C00 = .error .oneOperandOp ∧
    decode 0x8000 = .error .opcode100 ∧ decode 0x9FFF = .error .opcode100 ∧
    decode 0xA800 = .error .jumpType ∧ decode 0xBF00 = .error .jumpType ∧
    decode 0xC800 = .error .ioType ∧ decode 0xDC00 = .error .ioType ∧
    decode 0xE000 = .error .opcode111 ∧ decode 0xFFFF = .error .opcode111 := by decide

/-- What the host reads of a table row (spec/opcode_table.json). -/
theorem test_decodeTableWord :
    decodeTableWord 16 0xB130 = some (.jeImm 0x30) ∧ decodeTableWord 16 0x8000 = none := by decide

/-! ### One step on a small state: the worked example of each instruction's rule -/

/-- A state with nothing in memory. -/
def small (pc ra rb rc rd : Byte) (zf cf : Bool) : State :=
  { ra := ra, rb := rb, rc := rc, rd := rd, pc := pc, zf := zf, sf := false, cf := cf, mem := [], outPort := 0,
    trace := [], inputsTaken := 0, flagDraws := 0 }

/-- What `f` says of the state after one step that runs the word `w`. -/
def after {α : Type} (w : InstrWord) (s : State) (f : State → α) : Option α :=
  match step (s.placeWord .highFirst w) with
  | .next t => some (f t)
  | .fault _ => none
  | .refused _ => none

theorem test_movRegReg : after 0x0001 (small 0x10 0x11 0x7E 0 0 false false) (fun t => (t.ra, t.rb, t.pc)) = some (0x7E, 0x7E, 0x12) := by decide

theorem test_movRegImm : after 0x1035 (small 0x10 0 0 0 0 false false) (fun t => (t.ra, t.pc)) = some (0x35, 0x12) := by decide

theorem test_movRegMemReg : after 0x0700 ((small 0x10 0x40 0 0 0 false false).memWrite 0x40 0x9C) (fun t => (t.rd, t.ra)) = some (0x9C, 0x40) := by decide

/-- V5: the address is read before the destination is written. -/
theorem test_movRegMemReg_same_register : after 0x0505 ((small 0x10 0 0x20 0 0 false false).memWrite 0x20 0x21) (fun t => t.rb) = some 0x21 := by decide

theorem test_movRegMemImm : after 0x1712 ((small 0x20 0 0 0 0 false false).memWrite 0x12 0x5A) (fun t => t.rd) = some 0x5A := by decide

theorem test_movMemRegReg : after 0x0902 (small 0x10 0 0x80 0xE7 0 false false) (fun t => (t.memRead 0x80, t.rb, t.rc)) = some (0xE7, 0x80, 0xE7) := by decide

theorem test_movMemRegImm : after 0x1907 (small 0x10 0 0x80 0 0 false false) (fun t => t.memRead 0x80) = some 0x07 := by decide

/-- V11: a store over the instruction's own high byte. -/
theorem test_movMemRegImm_over_itself : after 0x1877 (small 0x04 0x04 0 0 0 false false) (fun t => (t.memRead 0x04, t.memRead 0x05, t.pc)) = some (0x77, 0x77, 0x06) := by decide

theorem test_addReg : after 0x2001 (small 0x10 0xF0 0x20 0 0 false false) (fun t => (t.ra, t.rb)) = some (0x10, 0x20) := by decide

/-- Section 2.2: `op r, r` uses the old value twice; flags stay. -/
theorem test_addReg_same_register : after 0x2000 (small 0x10 0xB5 0 0 0 true false) (fun t => (t.ra, t.zf)) = some (0x6A, true) := by decide

theorem test_addImm : after 0x3201 (small 0x10 0 0 0xFF 0 false false) (fun t => t.rc) = some 0x00 := by decide

/-- V73. -/
theorem test_addImm_wraps_pc : after 0x3001 (small 0xFE 0x07 0 0 0 false false) (fun t => (t.ra, t.pc)) = some (0x08, 0x00) := by decide

theorem test_subReg : after 0x2401 (small 0x10 0x10 0x20 0 0 false false) (fun t => t.ra) = some 0xF0 := by decide

theorem test_subImm : after 0x3403 (small 0x10 0x0A 0 0 0 false false) (fun t => t.ra) = some 0x07 := by decide

/-- V21. -/
theorem test_subImm_keeps_flags : after 0x3501 (small 0x10 0 0x01 0 0 false true) (fun t => (t.rb, t.zf, t.cf)) = some (0x00, false, true) := by decide

theorem test_andReg : after 0x2801 (small 0x10 0xCC 0xAA 0 0 false false) (fun t => t.ra) = some 0x88 := by decide

theorem test_andImm : after 0x3B55 (small 0x10 0 0 0 0xF3 false false) (fun t => t.rd) = some 0x51 := by decide

theorem test_orReg : after 0x2C01 (small 0x10 0xCC 0xAA 0 0 false false) (fun t => t.ra) = some 0xEE := by decide

theorem test_orImm : after 0x3D80 (small 0x10 0 0x01 0 0 false false) (fun t => t.rb) = some 0x81 := by decide

theorem test_xorReg : after 0x4001 (small 0x10 0xCC 0xAA 0 0 false false) (fun t => t.ra) = some 0x66 := by decide

theorem test_xorImm : after 0x52FF (small 0x10 0 0 0x0F 0 false false) (fun t => t.rc) = some 0xF0 := by decide

theorem test_cmpReg : after 0x4401 (small 0x10 0x30 0xC0 0 0 true false) (fun t => (t.zf, t.cf, t.sf, t.ra)) = some (false, true, false, 0x30) := by decide

/-- Section 2.3: above, yet SF = 1. -/
theorem test_cmpReg_unsigned : after 0x4401 (small 0x10 0xFF 0x00 0 0 true true) (fun t => (t.zf, t.cf, t.sf)) = some (false, false, true) := by decide

theorem test_cmpImm : after 0x5500 (small 0x10 0 0x00 0 0 false true) (fun t => (t.zf, t.cf, t.sf)) = some (true, false, false) := by decide

theorem test_notReg : after 0x6000 (small 0x10 0x5A 0 0 0 false false) (fun t => t.ra) = some 0xA5 := by decide

theorem test_shrReg : after 0x6400 (small 0x10 0xB5 0 0 0 false false) (fun t => t.ra) = some 0x5A := by decide

theorem test_rorReg : after 0x6900 (small 0x10 0 0x81 0 0 false false) (fun t => t.rb) = some 0xC0 := by decide

theorem test_asrReg : after 0x6E00 (small 0x10 0 0 0x85 0 false false) (fun t => t.rc) = some 0xC2 := by decide

theorem test_rolReg : after 0x7300 (small 0x10 0 0 0 0x81 false false) (fun t => t.rd) = some 0x03 := by decide

theorem test_jmpReg : after 0xA003 (small 0x10 0 0 0 0x40 false false) (fun t => t.pc) = some 0x40 := by decide

theorem test_jmpImm : after 0xB00E (small 0x0E 0 0 0 0 false false) (fun t => t.pc) = some 0x0E := by decide

theorem test_jeReg_taken : after 0xA102 (small 0x20 0 0 0x08 0 true false) (fun t => t.pc) = some 0x08 := by decide

theorem test_jeReg_not_taken : after 0xA102 (small 0x20 0 0 0x08 0 false false) (fun t => t.pc) = some 0x22 := by decide

theorem test_jeImm_taken : after 0xB130 (small 0x06 0 0 0 0 true false) (fun t => t.pc) = some 0x30 := by decide

theorem test_jeImm_not_taken : after 0xB130 (small 0x06 0 0 0 0 false false) (fun t => t.pc) = some 0x08 := by decide

theorem test_jneReg_taken : after 0xA903 (small 0x10 0 0 0 0x06 false false) (fun t => t.pc) = some 0x06 := by decide

theorem test_jneReg_not_taken : after 0xA903 (small 0x10 0 0 0 0x06 true false) (fun t => t.pc) = some 0x12 := by decide

theorem test_jneImm_taken : after 0xB904 (small 0x0A 0 0 0 0 false false) (fun t => t.pc) = some 0x04 := by decide

theorem test_jneImm_not_taken : after 0xB904 (small 0x0A 0 0 0 0 true false) (fun t => t.pc) = some 0x0C := by decide

theorem test_jaReg_taken : after 0xA201 (small 0x30 0 0x50 0 0 false false) (fun t => t.pc) = some 0x50 := by decide

theorem test_jaReg_not_taken : after 0xA201 (small 0x30 0 0x50 0 0 true false) (fun t => t.pc) = some 0x32 := by decide

theorem test_jaImm_taken : after 0xB20E (small 0x16 0 0 0 0 false false) (fun t => t.pc) = some 0x0E := by decide

theorem test_jaImm_not_taken : after 0xB20E (small 0x16 0 0 0 0 false true) (fun t => t.pc) = some 0x18 := by decide

theorem test_jaeReg_taken : after 0xA300 (small 0x40 0x00 0 0 0 true false) (fun t => t.pc) = some 0x00 := by decide

theorem test_jaeReg_not_taken : after 0xA300 (small 0x40 0x00 0 0 0 false true) (fun t => t.pc) = some 0x42 := by decide

theorem test_jaeImm_taken : after 0xB30A (small 0x06 0 0 0 0 false false) (fun t => t.pc) = some 0x0A := by decide

theorem test_jaeImm_not_taken : after 0xB30A (small 0x06 0 0 0 0 false true) (fun t => t.pc) = some 0x08 := by decide

theorem test_jbeReg_taken : after 0xAA02 (small 0x50 0 0 0x60 0 true false) (fun t => t.pc) = some 0x60 := by decide

theorem test_jbeReg_not_taken : after 0xAA02 (small 0x50 0 0 0x60 0 false false) (fun t => t.pc) = some 0x52 := by decide

theorem test_jbeImm_taken : after 0xBA20 (small 0x10 0 0 0 0 false true) (fun t => t.pc) = some 0x20 := by decide

theorem test_jbeImm_not_taken : after 0xBA20 (small 0x10 0 0 0 0 false false) (fun t => t.pc) = some 0x12 := by decide

theorem test_jbReg_taken : after 0xAB01 (small 0x60 0 0x70 0 0 false true) (fun t => t.pc) = some 0x70 := by decide

theorem test_jbReg_not_taken : after 0xAB01 (small 0x60 0 0x70 0 0 false false) (fun t => t.pc) = some 0x62 := by decide

theorem test_jbImm_taken : after 0xBB40 (small 0x08 0 0 0 0 false true) (fun t => t.pc) = some 0x40 := by decide

theorem test_jbImm_not_taken : after 0xBB40 (small 0x08 0 0 0 0 true false) (fun t => t.pc) = some 0x0A := by decide

theorem test_jcReg_taken : after 0xA400 (small 0x12 0x80 0 0 0 false true) (fun t => t.pc) = some 0x80 := by decide

theorem test_jcReg_not_taken : after 0xA400 (small 0x12 0x80 0 0 0 false false) (fun t => t.pc) = some 0x14 := by decide

theorem test_jcImm_taken : after 0xB4F0 (small 0x02 0 0 0 0 false true) (fun t => t.pc) = some 0xF0 := by decide

theorem test_jcImm_not_taken : after 0xB4F0 (small 0x02 0 0 0 0 false false) (fun t => t.pc) = some 0x04 := by decide

theorem test_jncReg_taken : after 0xAC01 (small 0x12 0 0x90 0 0 false false) (fun t => t.pc) = some 0x90 := by decide

theorem test_jncReg_not_taken : after 0xAC01 (small 0x12 0 0x90 0 0 false true) (fun t => t.pc) = some 0x14 := by decide

theorem test_jncImm_taken : after 0xBC10 (small 0xFE 0 0 0 0 false false) (fun t => t.pc) = some 0x10 := by decide

theorem test_jncImm_not_taken : after 0xBC10 (small 0xFE 0 0 0 0 false true) (fun t => t.pc) = some 0x00 := by decide

theorem test_outReg : after 0xC000 (small 0x10 0x0F 0 0 0 false false) (fun t => (t.outPort, t.trace)) = some (0x0F, [.output 0x0F]) := by decide

theorem test_outImm : after 0xD0AA (small 0x10 0 0 0 0 false false) (fun t => (t.outPort, t.trace)) = some (0xAA, [.output 0xAA]) := by decide

/-- R173: the register and the trace hold the same draw, whatever it is. -/
theorem test_inReg : after 0xC500 (small 0x10 0 0 0 0 false false) (fun t => (t.rb, t.trace, t.inputsTaken)) =
    some (Config.inputByte 0, [.input (Config.inputByte 0)], 1) := rfl

/-- V72: the fetch wraps from 0xFF to 0x00. -/
theorem test_fetch_wraps : after 0x1042 (small 0xFF 0 0 0 0 false false) (fun t => (t.ra, t.pc)) = some (0x42, 0x01) := by
  decide

/-- X1: a reserved word is refused with the word. -/
theorem test_reserved_refused : step ((small 0x00 0 0 0 0 false false).placeWord .highFirst 0x8000) =
    .refused (.reservedEncoding .opcode100 0x8000) := rfl

/-- X5: with JC_JNC_IMPLEMENTED false the word of `jc` is refused. -/
theorem test_carry_jump_refused :
    stepWith withoutCarryJumps ((small 0x00 0 0 0 0 false false).placeWord .highFirst 0xB410) =
      .refused (.reservedEncoding .carryJump 0xB410) := rfl

/-- V71: the byte at the lower address is the high byte; the other order is another instruction. -/
theorem test_byte_order :
    (((small 0x10 0 0 0 0 false false).memWrite 0x10 0x35).memWrite 0x11 0x10).fetchWord .highFirst = 0x3510 ∧
    (((small 0x10 0 0 0 0 false false).memWrite 0x10 0x35).memWrite 0x11 0x10).fetchWord .lowFirst = 0x1035 := by decide

/-- The word placed for the host is fetched and run as the first instruction after reset. -/
theorem test_first_instruction : (match step (State.reset.withFetchWord 16 0x1035) with
    | .next t => some (t.ra, t.pc)
    | .fault _ => none
    | .refused _ => none) = some (0x35, 0x02) := by decide

/-! ### The memory's data -/

theorem test_memory_sorted :
    ((Memory.write [] 0x20 0x01).write 0x10 0x02).write 0x20 0x03 = [(0x10, 0x02), (0x20, 0x03)] := by decide

theorem test_memory_unsorted_is_not_wf : ¬Memory.wf [(0x20, 0x01), (0x10, 0x02)] ∧ ¬Memory.wf [(0x100, 0x00)] := by decide

/-! ### The assembler: the source's ten statements (95_test_vectors.md S1 to S10; S9 with its `h`) and the rejections of
30_encoding.md R79 -/

theorem test_assemble_moves :
    assembleText "mov ra, rb" = some 0x0001 ∧ assembleText "mov ra, 35h" = some 0x1035 ∧
    assembleText "mov rd, [ra]" = some 0x0700 ∧ assembleText "mov rd, [12h]" = some 0x1712 ∧
    assembleText "mov [rb], rc" = some 0x0902 ∧ assembleText "mov [rb], 07h" = some 0x1907 := by decide

theorem test_assemble_alu :
    assembleText "add ra, rb" = some 0x2001 ∧ assembleText "sub ra,3" = some 0x3403 ∧
    assembleText "and rd, 55h" = some 0x3B55 ∧ assembleText "ror rb" = some 0x6900 := by decide

theorem test_assemble_aliases :
    assembleText "jz 30h" = assembleText "je 30h" ∧ assembleText "jnz rd" = some 0xA903 ∧
    assembleText "njz rd" = none := by decide

theorem test_assemble_rejects :
    assembleText "add [ra], rb" = none ∧ assembleText "mov [ra], [rb]" = none ∧ assembleText "mov [12h], ra" = none ∧
    assembleText "in 5" = none ∧ assembleText "not 5" = none ∧ assembleText "out 256" = none := by decide

theorem test_disassemble : disassembleWord 0x00FD = some ⟨.mov, [.reg .ra, .reg .rb]⟩ ∧ disassembleWord 0x8000 = none := by
  decide

/-! ### Witnesses: for each statement with hypotheses, a state and operands that meet them together. The rows' theorems above
are the witnesses of the statements about one instruction. -/

def moveAtTen : State := (small 0x10 0 0 0 0 false false).placeWord .highFirst 0x1035

theorem witness_StepRunsDecodedInstruction :
    decode (moveAtTen.memRead moveAtTen.pc ++ moveAtTen.memRead (moveAtTen.pc + 1)) = .ok (.movRegImm .ra 0x35) := by decide

theorem witness_StepRefuses_unlisted :
    ∀ r ∈ opcodeTable, r.matchesWord (((small 0 0 0 0 0 false false).placeWord .highFirst 0x0C00).fetchWord .highFirst) =
      false := by decide

theorem witness_StepRefuses_listed :
    ∃ r ∈ opcodeTable, r.matchesWord (((small 0 0 0 0 0 false false).placeWord .highFirst 0x0BFF).fetchWord .highFirst) =
      true := by decide

theorem witness_UnusedBitsDoNotMatter :
    decode 0xC500 = .ok (.inReg .rb) ∧
    0xD5FF#16 &&& ~~~dontCare (.inReg .rb) = 0xC500#16 &&& ~~~dontCare (.inReg .rb) := by decide

theorem witness_OpcodeRowsAreDisjoint :
    (⟨44, 0xC400, 0xEC00⟩ : OpcodeRow) ∈ opcodeTable ∧ (⟨44, 0xC400, 0xEC00⟩ : OpcodeRow).matchesWord 0xD7FF = true := by
  decide

def inputAtZero : State := (small 0x00 0 0 0 0 false false).placeWord .highFirst 0xC500

theorem witness_StepKeepsMemoryAndTraceInvariant : inputAtZero.Inv ∧ ∃ t, step inputAtZero = .next t :=
  ⟨⟨by decide, rfl⟩, _, rfl⟩

def compareAtZero : State := (small 0x00 0x30 0xC0 0 0 true false).placeWord .highFirst 0x4401

theorem witness_StepKeepsFlagsFromCompare : compareAtZero.flagsFromCompare ∧ ∃ t, step compareAtZero = .next t :=
  ⟨by unfold State.flagsFromCompare; decide, _, rfl⟩

theorem witness_OnlyCompareWritesFlags : isCompare (.addReg .ra .rb) = false := rfl

theorem witness_OnlyTheListedRegisterIsWritten : writtenReg (.inReg .rb) ≠ some .ra := by decide

theorem witness_FinalStateNeverChanges : ((small 0x0E 0 0 0 0 false false).placeWord .highFirst 0xB00E).isFinal :=
  ⟨by decide, by decide⟩

/-- P5 of 95_test_vectors.md: the store hits the low byte of the next instruction, at pc + 3. -/
def storeNext : State := (small 0x02 0x04 0x05 0 0 false false).placeWord .highFirst 0x1999

theorem witness_StoreIsSeenByTheNextFetch :
    decode (storeNext.memRead storeNext.pc ++ storeNext.memRead (storeNext.pc + 1)) = .ok (.movMemRegImm .rb 0x99) ∧
    storedCell storeNext (.movMemRegImm .rb 0x99) = some (0x05, 0x99) ∧ 0x05 = storeNext.pc + 3 := by decide

/-- The register form, hitting the high byte, at pc + 2. -/
def storeNextReg : State := (small 0x02 0x04 0x05 0 0 false false).placeWord .highFirst 0x0801

theorem witness_StoreIsSeenByTheNextFetch_reg :
    decode (storeNextReg.memRead storeNextReg.pc ++ storeNextReg.memRead (storeNextReg.pc + 1)) =
      .ok (.movMemRegReg .ra .rb) ∧
    storedCell storeNextReg (.movMemRegReg .ra .rb) = some (0x04, 0x05) ∧ 0x04 = storeNextReg.pc + 2 := by decide

theorem witness_FetchIsHighByteFirstAndWraps : (small 0xFF 0 0 0 0 false false).pc = 0xFF := rfl

def hiddenDiffers (s : State) : State := { s with sf := !s.sf, outPort := s.outPort + 1 }

theorem witness_SignFlagAndOutPort_next :
    AgreeButHidden moveAtTen (hiddenDiffers moveAtTen) ∧ hiddenDiffers moveAtTen ≠ moveAtTen ∧
    ∃ t, step moveAtTen = .next t :=
  ⟨⟨rfl, rfl, rfl, rfl, rfl, rfl, rfl, rfl, rfl, rfl, rfl⟩, by decide, _, rfl⟩

theorem witness_SignFlagAndOutPort_refused :
    ∃ r, step ((small 0x00 0 0 0 0 false false).placeWord .highFirst 0xFFFF) = .refused r :=
  ⟨_, rfl⟩

theorem witness_CarryJumpsReserved_refused : withoutCarryJumps.jcJncImplemented = false ∧
    FullGeometry withoutCarryJumps ∧ withoutCarryJumps.reservedTreatment = .refuse ∧
    highByte (((small 0 0 0 0 0 false false).placeWord .highFirst 0xA4FF).fetchWord withoutCarryJumps.instrByteOrder) ∈
      [0xA4#8, 0xB4#8, 0xAC#8, 0xBC#8] := by decide

theorem witness_CarryJumpsReserved_others : highByte 0xA3FF ∉ [0xA4#8, 0xB4#8, 0xAC#8, 0xBC#8] ∧
    highByte 0xA500 ∉ [0xA4#8, 0xB4#8, 0xAC#8, 0xBC#8] := by decide

/-- A machine of 128 cells, the last of them not writable, and a pointer of 7 bits. -/
def smallMachine : Params := { memCells := 128, alen := 7, pclen := 7, readOnlyCells := [0x7F] }

theorem witness_NarrowerParameters : smallMachine.pcStep = 2 ∧ smallMachine.flagsWriters = .cmpOnly ∧
    smallMachine.instrByteOrder = .highFirst ∧ smallMachine.reservedTreatment = .refuse ∧
    ∃ t, stepWith smallMachine moveAtTen = .next t := ⟨rfl, rfl, rfl, rfl, _, rfl⟩

/-- Cells and pointers that the small machine lacks, at its edges. -/
theorem test_smallMachine_edges :
    smallMachine.hasCell 0x7F = true ∧ smallMachine.hasCell 0x80 = false ∧
    smallMachine.holdsPointer 0x7F = true ∧ smallMachine.holdsPointer 0x80 = false := by decide

theorem test_smallMachine_refuses :
    stepWith smallMachine ((small 0x10 0x80 0 0 0 false false).placeWord .highFirst 0x1807) = .refused (.noSuchCell 0x80) ∧
    stepWith smallMachine ((small 0x10 0x7F 0 0 0 false false).placeWord .highFirst 0x1807) = .refused (.readOnlyCell 0x7F) ∧
    stepWith smallMachine ((small 0x10 0 0 0 0 false false).placeWord .highFirst 0xB080) = .refused .pointerWidth ∧
    stepWith { cell := 16 } moveAtTen = .refused .unsupportedParameters := ⟨rfl, rfl, rfl, rfl⟩

/-- Every ALU instruction writes flags, steps by 1, the low byte lies first, and reserved words pass over. -/
def otherMachine : Params :=
  { pcStep := 1, flagsWriters := .everyAlu, instrByteOrder := .lowFirst, reservedTreatment := .noOperation }

def addAtTen : State := (small 0x10 0xF0 0x20 0 0 true true).placeWord .lowFirst 0x2001

theorem witness_StepFollowsTheParameters_instruction : FullGeometry otherMachine ∧
    decodeWith otherMachine (addAtTen.fetchWord otherMachine.instrByteOrder) = .ok (.addReg .ra .rb) := by decide

theorem witness_StepFollowsTheParameters_reserved : FullGeometry otherMachine ∧
    decodeWith otherMachine (((small 0 0 0 0 0 false false).placeWord .lowFirst 0x8000).fetchWord
      otherMachine.instrByteOrder) = .error .opcode100 := by decide

/-- D6: after the addition the flags are a draw; 41_alu_two_operand.md R111: its sum; PC_STEP 1. -/
theorem test_drawn_flags : (match stepWith otherMachine addAtTen with
    | .next t => some (t.ra, t.pc, t.zf, t.flagDraws)
    | .fault _ => none
    | .refused _ => none) = some (0x10, 0x11, Config.drawnZf 0, 1) := rfl

theorem witness_IdiomsHaveTheirEffects : Reg.rb ≠ Reg.rc := by decide

theorem witness_AssemblingADisassembly : decode 0x00FD = .ok (.movRegReg .ra .rb) := by decide

theorem witness_AssemblerAcceptsListedShapesOnly :
    assemble ⟨.jz, [.num 255]⟩ = some (.jeImm 0xFF) ∧ assemble ⟨.mov, [.memReg .rd, .num 0]⟩ = some (.movMemRegImm .rd 0) := by
  decide

end Sys2Proof.Tests
end

section
/-!
PROOFS. Rows of the opcode map whose mask is 0xFC00 (spec/30_encoding.md R68): the fields of the row's high byte are those of
every word of the row.
-/

namespace Sys2Proof.Machine

/-! ### Fields of a word, from its two bytes -/

@[simp] theorem wordDreg_append (hi lo : Byte) : wordDreg (hi ++ lo) = dregField hi := by
  rw [wordDreg, dregField, BitVec.extractLsb'_append_eq_of_le (by decide)]

@[simp] theorem wordImm_append (hi lo : Byte) : wordImm (hi ++ lo) = lo := lowByte_append hi lo

@[simp] theorem wordSrc_append (hi lo : Byte) : wordSrc (hi ++ lo) = srcField lo := by
  rw [wordSrc, srcField, BitVec.extractLsb'_append_eq_of_add_le (by decide)]

/-! ### The fields that the mask 0xFC00 keeps -/

theorem opcodeField_and (hi : Byte) : opcodeField (hi &&& 0xFC) = opcodeField hi := by
  rw [opcodeField, BitVec.extractLsb'_and, show (0xFC : Byte).extractLsb' 5 3 = BitVec.allOnes 3 from rfl,
    BitVec.and_allOnes, opcodeField]

theorem opField_and (hi : Byte) : opField (hi &&& 0xFC) = opField hi := by
  rw [opField, BitVec.extractLsb'_and, show (0xFC : Byte).extractLsb' 2 2 = BitVec.allOnes 2 from rfl,
    BitVec.and_allOnes, opField]

theorem immediateBit_and (hi : Byte) : immediateBit (hi &&& 0xFC) = immediateBit hi := by
  rw [immediateBit, BitVec.getLsbD_and, show (0xFC : Byte).getLsbD 4 = true from rfl, Bool.and_true, immediateBit]

/-! ### Rows -/

/-- To decode a row, decode the high bytes that its mask keeps; the low byte is free (R67). -/
theorem rowDecodes_of_high {bits mask : InstrWord} {f : InstrWord → Instr} (hm : lowByte mask = 0) (hb : lowByte bits = 0)
    (h : ∀ hi lo, hi &&& highByte mask = highByte bits → decodeBytes Config.decided hi lo = .ok (f (hi ++ lo))) :
    RowDecodes bits mask f := by
  refine forall_word fun hi lo hw => ?_
  have hrow := matchesWord_append (q := ⟨0, bits, mask⟩) hm hb hi lo
  rw [OpcodeRow.matchesWord, hw, beq_self_eq_true] at hrow
  rw [decode, decodeWith_append]
  exact h hi lo (eq_of_beq hrow.symm)

/-- A row of mask 0xFC00 fixes the opcode, the I/R-bar bit and `instr[11:10]` of its words. -/
theorem rowDecodes_of_fields {bits : InstrWord} {f : InstrWord → Instr} (hb : lowByte bits = 0)
    (h : ∀ hi lo, opcodeField hi = opcodeField (highByte bits) → immediateBit hi = immediateBit (highByte bits) →
      opField hi = opField (highByte bits) → decodeBytes Config.decided hi lo = .ok (f (hi ++ lo))) :
    RowDecodes bits 0xFC00 f := by
  refine rowDecodes_of_high rfl hb fun hi lo (hrow : hi &&& 0xFC = _) => h hi lo ?_ ?_ ?_
  · rw [← hrow, opcodeField_and]
  · rw [← hrow, immediateBit_and]
  · rw [← hrow, opField_and]

section
variable {bits : InstrWord} {reg : Reg → Reg → Instr} {imm : Reg → Byte → Instr} (hb : lowByte bits = 0)
  (h : ∀ hi lo, opcodeField hi = opcodeField (highByte bits) → opField hi = opField (highByte bits) →
    decodeBytes Config.decided hi lo = .ok (sourceForm hi lo (reg (dregField hi)) (imm (dregField hi))))
include hb h

/-- The row of a form with a register destination and a register source: I/R-bar is 0 (R64). -/
theorem rowDecodes_register (himm : immediateBit (highByte bits) = false) :
    RowDecodes bits 0xFC00 (fun w => reg (wordDreg w) (wordSrc w)) := by
  refine rowDecodes_of_fields hb fun hi lo ho hbit hop => ?_
  rw [h hi lo ho hop]
  simp [sourceForm, hbit, himm]

/-- The row of a form with a register destination and an immediate source: I/R-bar is 1 (R64). -/
theorem rowDecodes_immediate (himm : immediateBit (highByte bits) = true) :
    RowDecodes bits 0xFC00 (fun w => imm (wordDreg w) (wordImm w)) := by
  refine rowDecodes_of_fields hb fun hi lo ho hbit hop => ?_
  rw [h hi lo ho hop]
  simp [sourceForm, hbit, himm]

end

end Sys2Proof.Machine
end

section
/-!
PROOFS. The move instructions (spec/40_move.md R101 to R106): how the three move formats decode, and what each of the six forms
leaves.
-/

namespace Sys2Proof.Machine

/-! ### Decoding opcode 000 (30_encoding.md R69) -/

theorem decodeBytes_move (p : Params) (hi lo : Byte) (ho : opcodeField hi = 0) (hop : opField hi = 0) :
    decodeBytes p hi lo = .ok (sourceForm hi lo (.movRegReg (dregField hi)) (.movRegImm (dregField hi))) := by
  simp only [decodeBytes, ho, decodeMove, hop]

theorem decodeBytes_load (p : Params) (hi lo : Byte) (ho : opcodeField hi = 0) (hop : opField hi = 1) :
    decodeBytes p hi lo = .ok (sourceForm hi lo (.movRegMemReg (dregField hi)) (.movRegMemImm (dregField hi))) := by
  simp only [decodeBytes, ho, decodeMove, hop]

theorem decodeBytes_store (p : Params) (hi lo : Byte) (ho : opcodeField hi = 0) (hop : opField hi = 2) :
    decodeBytes p hi lo = .ok (sourceForm hi lo (.movMemRegReg (dregField hi)) (.movMemRegImm (dregField hi))) := by
  simp only [decodeBytes, ho, decodeMove, hop]

/-! ### What each form runs, by the shared operations -/

theorem exec_movRegReg (rn rm : Reg) (s : State) :
    exec (.movRegReg rn rm) s = (s.setReg rn (s.reg rm)).advance Config.decided := rfl

theorem exec_movRegImm (rn : Reg) (i : Byte) (s : State) :
    exec (.movRegImm rn i) s = (s.setReg rn i).advance Config.decided := rfl

theorem exec_movRegMemReg (rn rm : Reg) (s : State) :
    exec (.movRegMemReg rn rm) s = (s.setReg rn (s.memRead (s.reg rm))).advance Config.decided := rfl

theorem exec_movRegMemImm (rn : Reg) (i : Byte) (s : State) :
    exec (.movRegMemImm rn i) s = (s.setReg rn (s.memRead i)).advance Config.decided := rfl

theorem exec_movMemRegReg (rn rm : Reg) (s : State) :
    exec (.movMemRegReg rn rm) s = moveToMem Config.decided rn (s.reg rm) s := rfl

theorem exec_movMemRegImm (rn : Reg) (i : Byte) (s : State) :
    exec (.movMemRegImm rn i) s = moveToMem Config.decided rn i s := rfl

/-- `setReg_advance_effect` for the statements that leave `pc` to another one. -/
theorem setReg_advance_frame (r : Reg) (v : Byte) (s : State) :
    ∃ t, (s.setReg r v).advance Config.decided = .next t ∧ RegWritten r v s t ∧ SameFlags s t ∧ SameMemory s t ∧
      SameIo s t := by
  obtain ⟨t, ht, hreg, -, hframe⟩ := setReg_advance_effect r v s
  exact ⟨t, ht, hreg, hframe⟩

/-- `moveToMem_effect` for the statements that leave `pc` to another one. -/
theorem moveToMem_frame (rn : Reg) (v : Byte) (s : State) :
    ∃ t, moveToMem Config.decided rn v s = .next t ∧ MemWritten (s.reg rn) v s t ∧ SameRegs s t ∧ SameFlags s t ∧
      SameIo s t := by
  obtain ⟨t, ht, hmem, -, hframe⟩ := moveToMem_effect rn v s
  exact ⟨t, ht, hmem, hframe⟩

/-! ### The obligations -/

/-- Settles O1. -/
theorem movRegisterToRegister : Obligations.MovRegisterToRegister := by
  refine ⟨rowDecodes_register rfl (decodeBytes_move _) rfl, fun rn rm s => ?_⟩
  rw [exec_movRegReg]
  exact setReg_advance_effect rn (s.reg rm) s

/-- Settles O2. -/
theorem movImmediateToRegister : Obligations.MovImmediateToRegister := by
  refine ⟨rowDecodes_immediate rfl (decodeBytes_move _) rfl, fun rn i s => ?_⟩
  rw [exec_movRegImm]
  exact setReg_advance_frame rn i s

/-- Settles O3: the address is read before rn is written, so rn = rm is no exception. -/
theorem loadThroughRegister : Obligations.LoadThroughRegister := by
  refine ⟨rowDecodes_register rfl (decodeBytes_load _) rfl, fun rn rm s => ?_⟩
  rw [exec_movRegMemReg]
  exact setReg_advance_frame rn (s.memRead (s.reg rm)) s

/-- Settles O4. -/
theorem loadFromImmediateAddress : Obligations.LoadFromImmediateAddress := by
  refine ⟨rowDecodes_immediate rfl (decodeBytes_load _) rfl, fun rn i s => ?_⟩
  rw [exec_movRegMemImm]
  exact setReg_advance_frame rn (s.memRead i) s

/-- Settles O5. -/
theorem storeRegister : Obligations.StoreRegister := by
  refine ⟨rowDecodes_register rfl (decodeBytes_store _) rfl, fun rn rm s => ?_⟩
  rw [exec_movMemRegReg]
  exact moveToMem_frame rn (s.reg rm) s

/-- Settles O6. -/
theorem storeImmediate : Obligations.StoreImmediate := by
  refine ⟨rowDecodes_immediate rfl (decodeBytes_store _) rfl, fun rn i s => ?_⟩
  rw [exec_movMemRegImm]
  exact moveToMem_frame rn i s

end Sys2Proof.Machine
end

section
/-!
PROOFS. The two-operand logic and arithmetic instructions (spec/41_alu_two_operand.md R110 to R120): how each decodes, and the
one effect they share, whatever the operation.
-/

namespace Sys2Proof.Machine

/-! ### Decoding opcodes 001 and 010 (30_encoding.md R70) -/

theorem decodeBytes_add (p : Params) (hi lo : Byte) (ho : opcodeField hi = 1) (hop : opField hi = 0) :
    decodeBytes p hi lo = .ok (sourceForm hi lo (.addReg (dregField hi)) (.addImm (dregField hi))) := by
  simp only [decodeBytes, ho, decodeFirstAlu, hop]

theorem decodeBytes_sub (p : Params) (hi lo : Byte) (ho : opcodeField hi = 1) (hop : opField hi = 1) :
    decodeBytes p hi lo = .ok (sourceForm hi lo (.subReg (dregField hi)) (.subImm (dregField hi))) := by
  simp only [decodeBytes, ho, decodeFirstAlu, hop]

theorem decodeBytes_and (p : Params) (hi lo : Byte) (ho : opcodeField hi = 1) (hop : opField hi = 2) :
    decodeBytes p hi lo = .ok (sourceForm hi lo (.andReg (dregField hi)) (.andImm (dregField hi))) := by
  simp only [decodeBytes, ho, decodeFirstAlu, hop]

theorem decodeBytes_or (p : Params) (hi lo : Byte) (ho : opcodeField hi = 1) (hop : opField hi = 3) :
    decodeBytes p hi lo = .ok (sourceForm hi lo (.orReg (dregField hi)) (.orImm (dregField hi))) := by
  simp only [decodeBytes, ho, decodeFirstAlu, hop]

theorem decodeBytes_xor (p : Params) (hi lo : Byte) (ho : opcodeField hi = 2) (hop : opField hi = 0) :
    decodeBytes p hi lo = .ok (sourceForm hi lo (.xorReg (dregField hi)) (.xorImm (dregField hi))) := by
  simp only [decodeBytes, ho, decodeSecondAlu, hop]

/-! ### What each form runs, by the shared operation -/

theorem exec_addReg (rn rm : Reg) (s : State) :
    exec (.addReg rn rm) s = aluTwo Config.decided (fun a b => a + b) rn (.reg rm) s := rfl

theorem exec_addImm (rn : Reg) (i : Byte) (s : State) :
    exec (.addImm rn i) s = aluTwo Config.decided (fun a b => a + b) rn (.imm i) s := rfl

theorem exec_subReg (rn rm : Reg) (s : State) :
    exec (.subReg rn rm) s = aluTwo Config.decided (fun a b => a - b) rn (.reg rm) s := rfl

theorem exec_subImm (rn : Reg) (i : Byte) (s : State) :
    exec (.subImm rn i) s = aluTwo Config.decided (fun a b => a - b) rn (.imm i) s := rfl

theorem exec_andReg (rn rm : Reg) (s : State) :
    exec (.andReg rn rm) s = aluTwo Config.decided (fun a b => a &&& b) rn (.reg rm) s := rfl

theorem exec_andImm (rn : Reg) (i : Byte) (s : State) :
    exec (.andImm rn i) s = aluTwo Config.decided (fun a b => a &&& b) rn (.imm i) s := rfl

theorem exec_orReg (rn rm : Reg) (s : State) :
    exec (.orReg rn rm) s = aluTwo Config.decided (fun a b => a ||| b) rn (.reg rm) s := rfl

theorem exec_orImm (rn : Reg) (i : Byte) (s : State) :
    exec (.orImm rn i) s = aluTwo Config.decided (fun a b => a ||| b) rn (.imm i) s := rfl

theorem exec_xorReg (rn rm : Reg) (s : State) :
    exec (.xorReg rn rm) s = aluTwo Config.decided (fun a b => a ^^^ b) rn (.reg rm) s := rfl

theorem exec_xorImm (rn : Reg) (i : Byte) (s : State) :
    exec (.xorImm rn i) s = aluTwo Config.decided (fun a b => a ^^^ b) rn (.imm i) s := rfl

/-! ### The shared effect (R110) -/

/-- Both operands are read in the old state, so a source that is the destination register is no exception. -/
theorem aluTwo_frame (op : Byte → Byte → Byte) (rn : Reg) (src : Src) (s : State) :
    ∃ t, aluTwo Config.decided op rn src s = .next t ∧ RegWritten rn (op (s.reg rn) (s.srcVal src)) s t ∧
      SameFlags s t ∧ SameMemory s t ∧ SameIo s t := by
  rw [aluTwo_decided]
  exact setReg_advance_frame rn (op (s.reg rn) (s.srcVal src)) s

section
variable {op : Byte → Byte → Byte}

/-- What a register form that runs `aluTwo` leaves. -/
theorem exec_register_frame {form : Reg → Reg → Instr}
    (h : ∀ rn rm s, exec (form rn rm) s = aluTwo Config.decided op rn (.reg rm) s) (rn rm : Reg) (s : State) :
    ∃ t, exec (form rn rm) s = .next t ∧ RegWritten rn (op (s.reg rn) (s.reg rm)) s t ∧ SameFlags s t ∧
      SameMemory s t ∧ SameIo s t := by
  rw [h]
  exact aluTwo_frame op rn (.reg rm) s

/-- What an immediate form that runs `aluTwo` leaves. -/
theorem exec_immediate_frame {form : Reg → Byte → Instr}
    (h : ∀ rn i s, exec (form rn i) s = aluTwo Config.decided op rn (.imm i) s) (rn : Reg) (i : Byte) (s : State) :
    ∃ t, exec (form rn i) s = .next t ∧ RegWritten rn (op (s.reg rn) i) s t ∧ SameFlags s t ∧
      SameMemory s t ∧ SameIo s t := by
  rw [h]
  exact aluTwo_frame op rn (.imm i) s

end

/-! ### The obligations -/

/-- Settles O7: the effect is that of `aluTwo` at the wrapping sum. -/
theorem addStoresSum : Obligations.AddStoresSum :=
  ⟨rowDecodes_register rfl (decodeBytes_add _) rfl, rowDecodes_immediate rfl (decodeBytes_add _) rfl,
    exec_register_frame exec_addReg, exec_immediate_frame exec_addImm⟩

/-- Settles O8: the effect is that of `aluTwo` at the wrapping difference, dst first. -/
theorem subStoresDifference : Obligations.SubStoresDifference :=
  ⟨rowDecodes_register rfl (decodeBytes_sub _) rfl, rowDecodes_immediate rfl (decodeBytes_sub _) rfl,
    exec_register_frame exec_subReg, exec_immediate_frame exec_subImm⟩

/-- Settles O9: the effect is that of `aluTwo` at the bitwise and. -/
theorem andStoresConjunction : Obligations.AndStoresConjunction :=
  ⟨rowDecodes_register rfl (decodeBytes_and _) rfl, rowDecodes_immediate rfl (decodeBytes_and _) rfl,
    exec_register_frame exec_andReg, exec_immediate_frame exec_andImm⟩

/-- Settles O10: the effect is that of `aluTwo` at the bitwise or. -/
theorem orStoresDisjunction : Obligations.OrStoresDisjunction :=
  ⟨rowDecodes_register rfl (decodeBytes_or _) rfl, rowDecodes_immediate rfl (decodeBytes_or _) rfl,
    exec_register_frame exec_orReg, exec_immediate_frame exec_orImm⟩

/-- Settles O11: the effect is that of `aluTwo` at the bitwise exclusive or, whose row lies under opcode 010. -/
theorem xorStoresExclusiveOr : Obligations.XorStoresExclusiveOr :=
  ⟨rowDecodes_register rfl (decodeBytes_xor _) rfl, rowDecodes_immediate rfl (decodeBytes_xor _) rfl,
    exec_register_frame exec_xorReg, exec_immediate_frame exec_xorImm⟩

end Sys2Proof.Machine
end

section
/-!
PROOFS. The jumps whose conditions the source states (spec/44_jumps.md R144 to R151, R156, R157): rows of the opcode map whose mask
is 0xFF00, and the one effect all jumps share, whatever the condition.
-/

namespace Sys2Proof.Machine

/-! ### Rows of mask 0xFF00 (30_encoding.md R68, R72) -/

section
variable {bits : InstrWord} (hb : lowByte bits = 0)
include hb

/-- A row of mask 0xFF00 fixes the high byte of its words. -/
theorem rowDecodes_of_highByte {f : InstrWord → Instr}
    (h : ∀ lo, decodeBytes Config.decided (highByte bits) lo = .ok (f (highByte bits ++ lo))) : RowDecodes bits 0xFF00 f := by
  refine rowDecodes_of_high rfl hb fun hi lo (hrow : hi &&& BitVec.allOnes 8 = _) => ?_
  rw [BitVec.and_allOnes] at hrow
  rw [hrow]
  exact h lo

/-- The row of a jump through a register, that of the src field (R140). -/
theorem rowDecodes_jumpRegister {reg : Reg → Instr}
    (h : ∀ lo, decodeBytes Config.decided (highByte bits) lo = .ok (reg (srcField lo))) :
    RowDecodes bits 0xFF00 (fun w => reg (wordSrc w)) :=
  rowDecodes_of_highByte hb fun lo => by rw [h, wordSrc_append]

/-- The row of a jump to an immediate (R140). -/
theorem rowDecodes_jumpImmediate {imm : Byte → Instr} (h : ∀ lo, decodeBytes Config.decided (highByte bits) lo = .ok (imm lo)) :
    RowDecodes bits 0xFF00 (fun w => imm (wordImm w)) :=
  rowDecodes_of_highByte hb fun lo => by rw [h, wordImm_append]

end

/-! ### The conditions (44_jumps.md R142) -/

theorem Cond.holds_equal (zf cf : Bool) : Cond.equal.holds zf cf = true ↔ zf = true := Iff.rfl

theorem Cond.holds_notEqual (zf cf : Bool) : Cond.notEqual.holds zf cf = true ↔ zf = false := by
  simp [Cond.holds]

theorem Cond.holds_above (zf cf : Bool) : Cond.above.holds zf cf = true ↔ zf = false ∧ cf = false := by
  simp [Cond.holds]

theorem Cond.holds_below (zf cf : Bool) : Cond.below.holds zf cf = true ↔ zf = false ∧ cf = true := by
  simp [Cond.holds]

/-! ### The shared effect (44_jumps.md R140) -/

/-- Every jump runs `jumpIf`, on the condition and the target operand that the table of R142 lists for it. -/
theorem exec_of_jumpOf {i : Instr} {c : Cond} {src : Src} (h : jumpOf i = some (c, src)) (s : State) :
    exec i s = jumpIf Config.decided c src s := by
  cases i <;> cases h <;> rfl

section
variable {i : Instr} {c : Cond} {src : Src}

/-- What a jump leaves, its condition read as a proposition about the old flags. -/
theorem exec_jump_effect (h : jumpOf i = some (c, src)) {P : Prop} [Decidable P] {s : State}
    (hP : c.holds s.zf s.cf = true ↔ P) :
    ∃ t, exec i s = .next t ∧ t.pc = (if P then s.srcVal src else s.pc + 2) ∧ SameRegs s t ∧ SameFlags s t ∧
      SameMemory s t ∧ SameIo s t := by
  rw [exec_of_jumpOf h]
  simpa only [hP] using jumpIf_effect c src s

/-- What an unconditional jump leaves. -/
theorem exec_jump_always_effect (h : jumpOf i = some (.always, src)) (s : State) :
    ∃ t, exec i s = .next t ∧ t.pc = s.srcVal src ∧ SameRegs s t ∧ SameFlags s t ∧ SameMemory s t ∧ SameIo s t := by
  rw [exec_of_jumpOf h]
  exact jumpIf_effect .always src s

end

/-! ### The obligations -/

/-- Settles O18: the condition `always` holds in every state. -/
theorem jmpAlwaysJumps : Obligations.JmpAlwaysJumps :=
  ⟨rowDecodes_jumpRegister rfl fun _ => rfl, rowDecodes_jumpImmediate rfl fun _ => rfl,
    fun rn => exec_jump_always_effect (src := .reg rn) rfl, fun i => exec_jump_always_effect (src := .imm i) rfl⟩

/-- Settles O19: the effect is that of `jumpIf` at the condition `equal`. -/
theorem jeJumpsWhenZeroSet : Obligations.JeJumpsWhenZeroSet :=
  ⟨rowDecodes_jumpRegister rfl fun _ => rfl, rowDecodes_jumpImmediate rfl fun _ => rfl,
    fun rn s => exec_jump_effect (src := .reg rn) rfl (Cond.holds_equal s.zf s.cf),
    fun i s => exec_jump_effect (src := .imm i) rfl (Cond.holds_equal s.zf s.cf)⟩

/-- Settles O20: the effect is that of `jumpIf` at the condition `notEqual`. -/
theorem jneJumpsWhenZeroClear : Obligations.JneJumpsWhenZeroClear :=
  ⟨rowDecodes_jumpRegister rfl fun _ => rfl, rowDecodes_jumpImmediate rfl fun _ => rfl,
    fun rn s => exec_jump_effect (src := .reg rn) rfl (Cond.holds_notEqual s.zf s.cf),
    fun i s => exec_jump_effect (src := .imm i) rfl (Cond.holds_notEqual s.zf s.cf)⟩

/-- Settles O21: the effect is that of `jumpIf` at the condition `above`. -/
theorem jaJumpsWhenAbove : Obligations.JaJumpsWhenAbove :=
  ⟨rowDecodes_jumpRegister rfl fun _ => rfl, rowDecodes_jumpImmediate rfl fun _ => rfl,
    fun rn s => exec_jump_effect (src := .reg rn) rfl (Cond.holds_above s.zf s.cf),
    fun i s => exec_jump_effect (src := .imm i) rfl (Cond.holds_above s.zf s.cf)⟩

/-- Settles O24: the effect is that of `jumpIf` at the condition `below`. -/
theorem jbJumpsWhenBelow : Obligations.JbJumpsWhenBelow :=
  ⟨rowDecodes_jumpRegister rfl fun _ => rfl, rowDecodes_jumpImmediate rfl fun _ => rfl,
    fun rn s => exec_jump_effect (src := .reg rn) rfl (Cond.holds_below s.zf s.cf),
    fun i s => exec_jump_effect (src := .imm i) rfl (Cond.holds_below s.zf s.cf)⟩

end Sys2Proof.Machine
end

section
/-!
PROOFS. The output instructions (spec/45_external_interface.md R171, R172): how the format decodes, and what both forms leave.
-/

namespace Sys2Proof.Machine

/-! ### Decoding opcode 110 (30_encoding.md R73) -/

theorem decodeBytes_out (p : Params) (hi lo : Byte) (ho : opcodeField hi = 6) (hop : opField hi = 0) :
    decodeBytes p hi lo = .ok (sourceForm hi lo .outReg .outImm) := by
  simp only [decodeBytes, ho, decodeIo, hop]

/-! ### What each form runs, by the shared operation -/

theorem exec_outReg (rn : Reg) (s : State) : exec (.outReg rn) s = outputFrom Config.decided (.reg rn) s := rfl

theorem exec_outImm (i : Byte) (s : State) : exec (.outImm i) s = outputFrom Config.decided (.imm i) s := rfl

/-- `outputFrom_effect` for the statements that leave `pc` to another one. -/
theorem outputFrom_frame (src : Src) (s : State) :
    ∃ t, outputFrom Config.decided src s = .next t ∧ t.outPort = s.srcVal src ∧
      t.trace = s.trace ++ [.output (s.srcVal src)] ∧ t.inputsTaken = s.inputsTaken ∧ SameRegs s t ∧ SameFlags s t ∧
      SameMemory s t := by
  obtain ⟨t, ht, hport, htrace, htaken, -, hframe⟩ := outputFrom_effect src s
  exact ⟨t, ht, hport, htrace, htaken, hframe⟩

/-! ### The obligations -/

/-- Settles O27: dreg is ignored, so the row is that of a register form that drops its destination. -/
theorem outRegisterPresentsIt : Obligations.OutRegisterPresentsIt := by
  refine ⟨rowDecodes_register (reg := fun _ => .outReg) (imm := fun _ => .outImm) rfl (decodeBytes_out _) rfl, fun rn s => ?_⟩
  rw [exec_outReg]
  exact outputFrom_frame (.reg rn) s

/-- Settles O28: dreg is ignored, so the row is that of an immediate form that drops its destination. -/
theorem outImmediatePresentsIt : Obligations.OutImmediatePresentsIt := by
  refine ⟨rowDecodes_immediate (reg := fun _ => .outReg) (imm := fun _ => .outImm) rfl (decodeBytes_out _) rfl, fun i s => ?_⟩
  rw [exec_outImm]
  exact outputFrom_frame (.imm i) s

end Sys2Proof.Machine
end

section
/-!
PROOFS. The eight operations behind the 44 forms: what each instruction runs under any parameters, what it does to the state
apart from `pc`, and where it leaves `pc`. Statements about all instructions are statements about these eight.
-/

namespace Sys2Proof.Machine

/-- What an instruction runs, its operands filled in: one case for each shared operation of the model. -/
inductive Operation where
  | move (rn : Reg) (src : Src)
  | load (rn : Reg) (src : Src)
  | store (rn : Reg) (src : Src)
  | alu (op : Byte → Byte → Byte) (rn : Reg) (src : Src)
  | compare (rn : Reg) (src : Src)
  | jump (c : Cond) (src : Src)
  | output (src : Src)
  | input (rn : Reg)

/-- The operation of each form. A one-operand instruction is an `alu` that ignores its source. -/
def Operation.of : Instr → Operation
  | .movRegReg rn rm => .move rn (.reg rm)
  | .movRegImm rn i => .move rn (.imm i)
  | .movRegMemReg rn rm => .load rn (.reg rm)
  | .movRegMemImm rn i => .load rn (.imm i)
  | .movMemRegReg rn rm => .store rn (.reg rm)
  | .movMemRegImm rn i => .store rn (.imm i)
  | .addReg rn rm => .alu (fun a b => a + b) rn (.reg rm)
  | .addImm rn i => .alu (fun a b => a + b) rn (.imm i)
  | .subReg rn rm => .alu (fun a b => a - b) rn (.reg rm)
  | .subImm rn i => .alu (fun a b => a - b) rn (.imm i)
  | .andReg rn rm => .alu (fun a b => a &&& b) rn (.reg rm)
  | .andImm rn i => .alu (fun a b => a &&& b) rn (.imm i)
  | .orReg rn rm => .alu (fun a b => a ||| b) rn (.reg rm)
  | .orImm rn i => .alu (fun a b => a ||| b) rn (.imm i)
  | .xorReg rn rm => .alu (fun a b => a ^^^ b) rn (.reg rm)
  | .xorImm rn i => .alu (fun a b => a ^^^ b) rn (.imm i)
  | .cmpReg rn rm => .compare rn (.reg rm)
  | .cmpImm rn i => .compare rn (.imm i)
  | .notReg r => .alu (fun v _ => ~~~v) r (.reg r)
  | .shrReg r => .alu (fun v _ => shiftRight v) r (.reg r)
  | .rorReg r => .alu (fun v _ => rotateRight v) r (.reg r)
  | .asrReg r => .alu (fun v _ => shiftRightArithmetic v) r (.reg r)
  | .rolReg r => .alu (fun v _ => rotateLeft v) r (.reg r)
  | .jmpReg rn => .jump .always (.reg rn)
  | .jmpImm i => .jump .always (.imm i)
  | .jeReg rn => .jump .equal (.reg rn)
  | .jeImm i => .jump .equal (.imm i)
  | .jneReg rn => .jump .notEqual (.reg rn)
  | .jneImm i => .jump .notEqual (.imm i)
  | .jaReg rn => .jump .above (.reg rn)
  | .jaImm i => .jump .above (.imm i)
  | .jaeReg rn => .jump .aboveEqual (.reg rn)
  | .jaeImm i => .jump .aboveEqual (.imm i)
  | .jbeReg rn => .jump .belowEqual (.reg rn)
  | .jbeImm i => .jump .belowEqual (.imm i)
  | .jbReg rn => .jump .below (.reg rn)
  | .jbImm i => .jump .below (.imm i)
  | .jcReg rn => .jump .carry (.reg rn)
  | .jcImm i => .jump .carry (.imm i)
  | .jncReg rn => .jump .notCarry (.reg rn)
  | .jncImm i => .jump .notCarry (.imm i)
  | .outReg rn => .output (.reg rn)
  | .outImm i => .output (.imm i)
  | .inReg rn => .input rn

/-- The meaning of an operation, by the model's shared operations. -/
def Operation.run (p : Params) (s : State) : Operation → Result
  | .move rn src => moveToReg p rn (s.srcVal src) s
  | .load rn src => loadToReg p rn src s
  | .store rn src => moveToMem p rn (s.srcVal src) s
  | .alu op rn src => aluTwo p op rn src s
  | .compare rn src => compareWith p rn src s
  | .jump c src => jumpIf p c src s
  | .output src => outputFrom p src s
  | .input rn => execInRegUnder p rn s

/-- Every form runs its operation, under any parameters. -/
theorem execUnder_eq_run (p : Params) (i : Instr) (s : State) : execUnder p i s = (Operation.of i).run p s := by
  cases i <;> rfl

/-! ### The state an operation leaves -/

/-- What an operation does to the state, `pc` apart. -/
def Operation.effect (p : Params) (s : State) : Operation → State
  | .move rn src => s.setReg rn (s.srcVal src)
  | .load rn src => s.setReg rn (s.srcCell src)
  | .store rn src => s.memWrite (s.reg rn) (s.srcVal src)
  | .alu op rn src => (s.setReg rn (op (s.reg rn) (s.srcVal src))).aluFlags p
  | .compare rn src =>
    s.setFlags (zeroFlag (s.reg rn) (s.srcVal src)) (signFlag (s.reg rn) (s.srcVal src)) (carryFlag (s.reg rn) (s.srcVal src))
  | .jump _ _ => s
  | .output src => s.ioWrite (s.srcVal src)
  | .input rn => s.takeInput.setReg rn s.inputValue

/-- Where an operation leaves `pc`. -/
def Operation.target (p : Params) (s : State) : Operation → Byte
  | .jump c src => if c.holds s.zf s.cf then s.srcVal src else s.pc + p.pcStep
  | _ => s.pc + p.pcStep

@[simp] theorem State.aluFlags_pc (p : Params) (s : State) : (s.aluFlags p).pc = s.pc := by
  unfold State.aluFlags
  split <;> rfl

/-- An advance that answers a next state wrote `pc` and nothing else. -/
theorem advance_next_inv {p : Params} {s t : State} (h : s.advance p = .next t) : t = s.setPc (s.pc + p.pcStep) :=
  goTo_next_inv h

/-- Whatever the parameters, an operation that answers a next state had its effect and moved `pc` to its target. -/
theorem Operation.run_next_inv {p : Params} {s t : State} {o : Operation} (h : o.run p s = .next t) :
    t = (o.effect p s).setPc (o.target p s) := by
  cases o with
  | move rn src => simpa [effect, target] using advance_next_inv h
  | load rn src =>
    simp only [run, loadToReg] at h
    split at h
    · simpa [effect, target] using advance_next_inv h
    · cases h
  | store rn src =>
    simp only [run, moveToMem] at h
    split at h
    · split at h
      · cases h
      · simpa [effect, target] using advance_next_inv h
    · cases h
  | alu op rn src => simpa [effect, target] using advance_next_inv h
  | compare rn src => simpa [effect, target] using advance_next_inv h
  | jump c src => exact goTo_next_inv h
  | output src => simpa [effect, target] using advance_next_inv h
  | input rn => simpa [effect, target] using advance_next_inv h

/-- Under parameters of full geometry every operation answers a next state. -/
theorem Operation.run_fullGeometry {p : Params} (h : FullGeometry p) (s : State) (o : Operation) :
    o.run p s = .next ((o.effect p s).setPc (o.target p s)) := by
  have hro : p.readOnlyCells = [] := h.2.2.2.2.2.2
  cases o <;>
    simp [run, effect, target, moveToReg, loadToReg, moveToMem, aluTwo, compareWith, jumpIf, outputFrom, execInRegUnder,
      State.nextPc, advance_fullGeometry h, goTo_fullGeometry h, hasCell_fullGeometry h, hro]

theorem fullGeometry_decided : FullGeometry Config.decided := by decide

/-- What every instruction leaves: it always completes. -/
theorem exec_eq_next (i : Instr) (s : State) :
    exec i s = .next (((Operation.of i).effect Config.decided s).setPc ((Operation.of i).target Config.decided s)) := by
  rw [← execUnder_decided, execUnder_eq_run, Operation.run_fullGeometry fullGeometry_decided]

/-- To say something of what an instruction leaves, say it of its operation. -/
theorem exec_exists_next {i : Instr} {s : State} {P : State → Prop}
    (h : P (((Operation.of i).effect Config.decided s).setPc ((Operation.of i).target Config.decided s))) :
    ∃ t, exec i s = .next t ∧ P t :=
  ⟨_, exec_eq_next i s, h⟩

/-- A step at the decided parameters that answers a next state is the effect of the operation it decoded. -/
theorem step_next_effect {s t : State} (h : step s = .next t) :
    ∃ o : Operation, t = (o.effect Config.decided s).setPc (o.target Config.decided s) := by
  obtain ⟨i, -, hi⟩ := step_next_inv h
  rw [exec_eq_next] at hi
  exact ⟨Operation.of i, (Host.Outcome.next.inj hi).symm⟩

/-! ### The tables of spec/10_state.md R21, spec/20_memory.md R46 and spec/45_external_interface.md R170, by operation -/

/-- `writtenReg`, by operation. -/
def Operation.writtenReg : Operation → Option Reg
  | .move rn _ | .load rn _ | .alu _ rn _ | .input rn => some rn
  | _ => none

/-- `storedCell`, by operation. -/
def Operation.storedCell (s : State) : Operation → Option (Byte × Byte)
  | .store rn src => some (s.reg rn, s.srcVal src)
  | _ => none

/-- `ioEvent`, by operation. -/
def Operation.ioEvent (s : State) : Operation → Option IoEvent
  | .output src => some (.output (s.srcVal src))
  | .input _ => some (.input s.inputValue)
  | _ => none

/-- `jumpOf`, by operation. -/
def Operation.jumpOf : Operation → Option (Cond × Src)
  | .jump c src => some (c, src)
  | _ => none

/-- `isCompare`, by operation. -/
def Operation.isCompare : Operation → Bool
  | .compare _ _ => true
  | _ => false

/-- `isOtherAlu`, by operation. -/
def Operation.isOtherAlu : Operation → Bool
  | .alu _ _ _ => true
  | _ => false

theorem writtenReg_eq (i : Instr) : writtenReg i = (Operation.of i).writtenReg := by cases i <;> rfl

theorem storedCell_eq (s : State) (i : Instr) : storedCell s i = (Operation.of i).storedCell s := by cases i <;> rfl

theorem ioEvent_eq (s : State) (i : Instr) : ioEvent s i = (Operation.of i).ioEvent s := by cases i <;> rfl

theorem jumpOf_eq (i : Instr) : jumpOf i = (Operation.of i).jumpOf := by cases i <;> rfl

theorem isCompare_eq (i : Instr) : isCompare i = (Operation.of i).isCompare := by cases i <;> rfl

theorem isOtherAlu_eq (i : Instr) : isOtherAlu i = (Operation.of i).isOtherAlu := by cases i <;> rfl

/-! ### What an operation writes at the decided parameters -/

/-- Only a comparison writes the flags (10_state.md R25). -/
theorem Operation.effect_sameFlags (s : State) {o : Operation} (h : o.isCompare = false) :
    SameFlags s (o.effect Config.decided s) := by
  cases o with
  | compare rn src => cases h
  | _ => simp [SameFlags, effect]

/-- An operation writes its `writtenReg` only (10_state.md R21). -/
theorem Operation.effect_reg (s : State) {o : Operation} {r : Reg} (h : o.writtenReg ≠ some r) :
    (o.effect Config.decided s).reg r = s.reg r := by
  cases o with
  | move rn src | load rn src | alu op rn src | input rn =>
    have hr : r ≠ rn := fun hr => h (hr ▸ rfl)
    simp [effect, hr]
  | _ => simp [effect]

/-- An operation writes its `storedCell` only (20_memory.md R46, R47). -/
theorem Operation.effect_memRead (s : State) (o : Operation) (a : Byte) :
    (o.effect Config.decided s).memRead a = match o.storedCell s with
      | some (b, v) => if a = b then v else s.memRead a
      | none => s.memRead a := by
  cases o with
  | store rn src => exact State.memRead_memWrite s (s.reg rn) a (s.srcVal src)
  | _ => simp [effect, storedCell]

/-- An operation adds its `ioEvent` to the trace (10_state.md R29). -/
theorem Operation.effect_trace (s : State) (o : Operation) :
    (o.effect Config.decided s).trace = s.trace ++ (o.ioEvent s).toList := by
  cases o <;> simp [effect, ioEvent]

/-- OUT_PORT is what the operation's `ioEvent` makes it (10_state.md R29). -/
theorem Operation.effect_outPort (s : State) (o : Operation) :
    (o.effect Config.decided s).outPort = outPortAfter s.outPort (o.ioEvent s) := by
  cases o <;> simp [effect, ioEvent, outPortAfter]

/-- Where `pc` goes, by `jumpOf` (10_state.md R23, 44_jumps.md R140). -/
theorem Operation.target_eq (p : Params) (s : State) (o : Operation) :
    o.target p s = match o.jumpOf with
      | some (c, src) => if c.holds s.zf s.cf then s.srcVal src else s.pc + p.pcStep
      | none => s.pc + p.pcStep := by
  cases o <;> rfl

/-! ### The obligations about every instruction -/

/-- Settles O40: of the eight operations only `compare` sets flags. -/
theorem onlyCompareWritesFlags : Obligations.OnlyCompareWritesFlags := fun i s =>
  exec_exists_next fun h => Operation.effect_sameFlags s (isCompare_eq i ▸ h)

/-- Settles O41. -/
theorem onlyTheListedRegisterIsWritten : Obligations.OnlyTheListedRegisterIsWritten := by
  refine fun i s => exec_exists_next fun r hr => ?_
  rw [writtenReg_eq] at hr
  rw [State.setPc_reg, Operation.effect_reg s hr]

/-- Settles O42. -/
theorem onlyStoresChangeMemory : Obligations.OnlyStoresChangeMemory := by
  refine fun i s => exec_exists_next fun a => ?_
  have heffect := (Operation.of i).effect_memRead s a
  rw [← storedCell_eq] at heffect
  exact heffect

/-- Settles O43. -/
theorem pcAfterEveryInstruction : Obligations.PcAfterEveryInstruction := by
  refine fun i s => exec_exists_next ?_
  have htarget := (Operation.of i).target_eq Config.decided s
  rw [← jumpOf_eq] at htarget
  exact htarget

/-- Settles O44. -/
theorem traceGainsOnlyIoEvents : Obligations.TraceGainsOnlyIoEvents := by
  refine fun i s => exec_exists_next ?_
  rw [ioEvent_eq]
  exact ⟨Operation.effect_trace s _, Operation.effect_outPort s _⟩

end Sys2Proof.Machine
end

section
/-!
PROOFS. What every step keeps: the form of the memory and the record of the draws, the flags that `cmp` can produce, and the
independence of all else from SF and OUT_PORT.
-/

namespace Sys2Proof.Machine

/-! ### The memory and the record of the draws (10_state.md R29, 20_memory.md R41) -/

/-- Only a store touches the memory's data, and a write keeps its canonical form. -/
theorem Operation.effect_wf {s : State} (h : s.mem.wf) (o : Operation) : (o.effect Config.decided s).mem.wf := by
  cases o with
  | store rn src => exact State.memWrite_wf h (s.reg rn) (s.srcVal src)
  | _ => simpa [effect] using h

/-- An `in` records the draw that it takes, and no other operation takes a draw or adds an `In` event. -/
theorem Operation.effect_inputsRecorded {s : State} (h : s.inputsRecorded) (o : Operation) :
    (o.effect Config.decided s).inputsRecorded := by
  unfold State.inputsRecorded at h ⊢
  cases o with
  | input rn => simp [effect, h, List.range_succ, IoEvent.inputValue?, State.inputValue]
  | output src => simp [effect, h, IoEvent.inputValue?]
  | _ => simpa [effect] using h

/-- Settles O37: every operation keeps both halves of the invariant, and moving `pc` touches neither. -/
theorem stepKeepsMemoryAndTraceInvariant : Obligations.StepKeepsMemoryAndTraceInvariant := by
  rintro s t ⟨hwf, hrec⟩ hstep
  obtain ⟨o, rfl⟩ := step_next_effect hstep
  exact ⟨o.effect_wf hwf, o.effect_inputsRecorded hrec⟩

/-- Settles O38: nothing is listed, and no draw is taken. -/
theorem resetMeetsMemoryAndTraceInvariant : Obligations.ResetMeetsMemoryAndTraceInvariant :=
  ⟨State.reset_mem_wf, rfl⟩

/-! ### The flags (42_compare.md R125, R128) -/

theorem zeroFlag_iff (a b : Byte) : zeroFlag a b = true ↔ a = b := beq_iff_eq

theorem carryFlag_iff (a b : Byte) : carryFlag a b = true ↔ a.toNat < b.toNat := decide_eq_true_iff

theorem signFlag_eq (a b : Byte) : signFlag a b = (a - b).msb := by
  rw [signFlag, BitVec.msb_eq_getLsbD_last]

/-- Equal operands are not below each other, so a comparison never sets ZF and CF together. -/
theorem not_zeroFlag_and_carryFlag (a b : Byte) : ¬(zeroFlag a b = true ∧ carryFlag a b = true) := by
  rw [zeroFlag_iff, carryFlag_iff]
  rintro ⟨rfl, hlt⟩
  exact Nat.lt_irrefl _ hlt

/-- Settles O39: a comparison cannot produce the pair, and no other operation writes a flag. -/
theorem stepKeepsFlagsFromCompare : Obligations.StepKeepsFlagsFromCompare := by
  intro s t hs hstep
  obtain ⟨o, rfl⟩ := step_next_effect hstep
  cases o with
  | compare rn src => exact not_zeroFlag_and_carryFlag (s.reg rn) (s.srcVal src)
  | _ => simpa [Operation.effect, State.flagsFromCompare] using hs

/-! ### SF and OUT_PORT (10_state.md R26, R30) -/

/-- `s` with another SF and another OUT_PORT. -/
def State.withHidden (s : State) (sf : Bool) (port : Byte) : State := { s with sf := sf, outPort := port }

theorem agreeButHidden_withHidden (s : State) (sf : Bool) (port : Byte) : AgreeButHidden s (s.withHidden sf port) :=
  ⟨rfl, rfl, rfl, rfl, rfl, rfl, rfl, rfl, rfl, rfl, rfl⟩

/-- A state that agrees with `s` but for SF and OUT_PORT is `s` with its own SF and OUT_PORT. -/
theorem AgreeButHidden.eq_withHidden {s t : State} (h : AgreeButHidden s t) : t = s.withHidden t.sf t.outPort := by
  obtain ⟨hra, hrb, hrc, hrd, hpc, hzf, hcf, hmem, htrace, hinputs, hdraws⟩ := h
  cases t
  simp_all [State.withHidden]

section
variable (s : State) (sf : Bool) (port : Byte)

@[simp] theorem State.withHidden_pc : (s.withHidden sf port).pc = s.pc := rfl

@[simp] theorem State.withHidden_zf : (s.withHidden sf port).zf = s.zf := rfl

@[simp] theorem State.withHidden_cf : (s.withHidden sf port).cf = s.cf := rfl

@[simp] theorem State.withHidden_reg (r : Reg) : (s.withHidden sf port).reg r = s.reg r := by cases r <;> rfl

@[simp] theorem State.withHidden_memRead (a : Byte) : (s.withHidden sf port).memRead a = s.memRead a := rfl

@[simp] theorem State.withHidden_srcVal (src : Src) : (s.withHidden sf port).srcVal src = s.srcVal src := by
  cases src <;> simp

@[simp] theorem State.withHidden_srcCell (src : Src) : (s.withHidden sf port).srcCell src = s.srcCell src := by
  cases src <;> simp

@[simp] theorem State.withHidden_inputValue : (s.withHidden sf port).inputValue = s.inputValue := rfl

@[simp] theorem State.withHidden_fetchWord (o : ByteOrder) : (s.withHidden sf port).fetchWord o = s.fetchWord o := rfl

/-- Writing a register and hiding commute. -/
theorem State.withHidden_setReg (r : Reg) (v : Byte) :
    (s.withHidden sf port).setReg r v = (s.setReg r v).withHidden sf port := by
  cases r <;> rfl

/-- Writing a cell and hiding commute. -/
theorem State.withHidden_memWrite (a v : Byte) :
    (s.withHidden sf port).memWrite a v = (s.memWrite a v).withHidden sf port :=
  rfl

/-- What a comparison writes to SF stays hidden. -/
theorem State.withHidden_setFlags (z n c : Bool) :
    (s.withHidden sf port).setFlags z n c = (s.setFlags z n c).withHidden n port :=
  rfl

/-- What an output writes to OUT_PORT stays hidden. -/
theorem State.withHidden_ioWrite (v : Byte) : (s.withHidden sf port).ioWrite v = (s.ioWrite v).withHidden sf v := rfl

/-- An operation's target does not depend on SF or OUT_PORT. -/
theorem Operation.target_withHidden (p : Params) (o : Operation) :
    o.target p (s.withHidden sf port) = o.target p s := by
  cases o <;> simp [target]

/-- An operation's effect on all but SF and OUT_PORT does not depend on them. -/
theorem Operation.effect_withHidden (o : Operation) :
    ∃ sf' port', o.effect Config.decided (s.withHidden sf port) = (o.effect Config.decided s).withHidden sf' port' := by
  cases o with
  | move rn src | load rn src | alu op rn src => exact ⟨sf, port, by simp [effect, State.withHidden_setReg]⟩
  | store rn src => exact ⟨sf, port, by simp [effect, State.withHidden_memWrite]⟩
  | compare rn src =>
    exact ⟨signFlag (s.reg rn) (s.srcVal src), port, by
      simp only [effect, State.withHidden_reg, State.withHidden_srcVal, State.withHidden_setFlags]⟩
  | jump c src => exact ⟨sf, port, rfl⟩
  | output src => exact ⟨sf, s.srcVal src, by simp only [effect, State.withHidden_srcVal, State.withHidden_ioWrite]⟩
  | input rn => exact ⟨sf, port, State.withHidden_setReg s.takeInput sf port rn s.inputValue⟩

/-- An instruction leaves states that agree but for SF and OUT_PORT. -/
theorem exec_withHidden (i : Instr) :
    ∃ t t', exec i s = .next t ∧ exec i (s.withHidden sf port) = .next t' ∧ AgreeButHidden t t' := by
  obtain ⟨sf', port', heffect⟩ := (Operation.of i).effect_withHidden s sf port
  refine ⟨_, _, exec_eq_next i s, exec_eq_next i _, ?_⟩
  rw [heffect, Operation.target_withHidden]
  exact agreeButHidden_withHidden (State.setPc _ _) sf' port'

end

/-- A step at the decided parameters, by what the fetched word decodes to. -/
theorem step_eq (s : State) : step s = match decode (s.fetchWord .highFirst) with
    | .ok i => exec i s
    | .error why => .refused (.reservedEncoding why (s.fetchWord .highFirst)) := by
  rfl

/-- Settles O49: the two states fetch the same word, and the instruction it decodes to leaves states that agree. -/
theorem signFlagAndOutPortAreUnobservable : Obligations.SignFlagAndOutPortAreUnobservable := by
  intro s t hagree
  have hfetch : t.fetchWord .highFirst = s.fetchWord .highFirst := by
    rw [hagree.eq_withHidden, State.withHidden_fetchWord]
  rw [step_eq, step_eq, hfetch]
  cases decode (s.fetchWord .highFirst) with
  | error why => exact ⟨fun s' h => (nomatch h), fun r h => h⟩
  | ok i =>
    obtain ⟨u, u', hu, hu', hu''⟩ := exec_withHidden s t.sf t.outPort i
    rw [← hagree.eq_withHidden] at hu'
    refine ⟨fun s' h => ⟨u', hu', ?_⟩, fun r h => ?_⟩
    · cases hu.symm.trans h
      exact hu''
    · cases hu.symm.trans h

end Sys2Proof.Machine
end

section
/-!
PROOFS. The encoder against the decoder (spec/30_encoding.md R62 to R73, R83): the fields of each format's high byte, and from
them what the canonical word of every instruction decodes to.
-/

namespace Sys2Proof

/-! ### The fields of the formats (R61 to R64) -/

@[simp] theorem opcodeField_formatM (imm ddm sdm : BitVec 1) (d : Reg) : opcodeField (formatM imm ddm sdm d) = 0 := by
  cases d <;> decide +revert

@[simp] theorem immediateBit_formatM (imm ddm sdm : BitVec 1) (d : Reg) :
    immediateBit (formatM imm ddm sdm d) = imm.getLsbD 0 := by
  cases d <;> decide +revert

@[simp] theorem opField_formatM (imm ddm sdm : BitVec 1) (d : Reg) :
    opField (formatM imm ddm sdm d) = (ddm ++ sdm).toNat := by
  cases d <;> decide +revert

@[simp] theorem dregField_formatM (imm ddm sdm : BitVec 1) (d : Reg) : dregField (formatM imm ddm sdm d) = d := by
  cases d <;> decide +revert

@[simp] theorem opcodeField_formatA2 (opcode : BitVec 3) (imm : BitVec 1) (op : BitVec 2) (d : Reg) :
    opcodeField (formatA2 opcode imm op d) = opcode.toNat := by
  cases d <;> decide +revert

@[simp] theorem immediateBit_formatA2 (opcode : BitVec 3) (imm : BitVec 1) (op : BitVec 2) (d : Reg) :
    immediateBit (formatA2 opcode imm op d) = imm.getLsbD 0 := by
  cases d <;> decide +revert

@[simp] theorem opField_formatA2 (opcode : BitVec 3) (imm : BitVec 1) (op : BitVec 2) (d : Reg) :
    opField (formatA2 opcode imm op d) = op.toNat := by
  cases d <;> decide +revert

@[simp] theorem dregField_formatA2 (opcode : BitVec 3) (imm : BitVec 1) (op : BitVec 2) (d : Reg) :
    dregField (formatA2 opcode imm op d) = d := by
  cases d <;> decide +revert

@[simp] theorem opcodeField_formatA1 (op : BitVec 3) (d : Reg) : opcodeField (formatA1 op d) = 3 := by
  cases d <;> decide +revert

@[simp] theorem oneOperandField_formatA1 (op : BitVec 3) (d : Reg) : oneOperandField (formatA1 op d) = op.toNat := by
  cases d <;> decide +revert

@[simp] theorem dregField_formatA1 (op : BitVec 3) (d : Reg) : dregField (formatA1 op d) = d := by
  cases d <;> decide +revert

@[simp] theorem opcodeField_formatJ (imm : BitVec 1) (jumpType : BitVec 4) : opcodeField (formatJ imm jumpType) = 5 := by
  decide +revert

@[simp] theorem immediateBit_formatJ (imm : BitVec 1) (jumpType : BitVec 4) :
    immediateBit (formatJ imm jumpType) = imm.getLsbD 0 := by
  decide +revert

@[simp] theorem jumpTypeField_formatJ (imm : BitVec 1) (jumpType : BitVec 4) :
    jumpTypeField (formatJ imm jumpType) = jumpType.toNat := by
  decide +revert

@[simp] theorem opcodeField_formatIo (imm : BitVec 1) (ioType d : BitVec 2) : opcodeField (formatIo imm ioType d) = 6 := by
  decide +revert

@[simp] theorem immediateBit_formatIo (imm : BitVec 1) (ioType d : BitVec 2) :
    immediateBit (formatIo imm ioType d) = imm.getLsbD 0 := by
  decide +revert

@[simp] theorem opField_formatIo (imm : BitVec 1) (ioType d : BitVec 2) : opField (formatIo imm ioType d) = ioType.toNat := by
  decide +revert

@[simp] theorem dregField_formatIo (imm : BitVec 1) (ioType : BitVec 2) (d : Reg) :
    dregField (formatIo imm ioType d.code) = d := by
  cases d <;> decide +revert

@[simp] theorem srcField_srcByte (r : Reg) : srcField (srcByte r) = r := by cases r <;> rfl

end Sys2Proof

namespace Sys2Proof.Machine

/-- Settles O32, opcode by opcode: the fields of the canonical high byte lead the decoder back to the form. -/
theorem decodeOfEncodeIsTheInstruction : Obligations.DecodeOfEncodeIsTheInstruction := by
  intro p i
  rw [decodeWith_encode]
  cases i with
  | movRegReg | movRegImm | movRegMemReg | movRegMemImm | movMemRegReg | movMemRegImm =>
    simp [encodeHigh, encodeLow, decodeBytes, decodeMove, sourceForm, Instr.wellFormedUnder]
  | addReg | addImm | subReg | subImm | andReg | andImm | orReg | orImm =>
    simp [encodeHigh, encodeLow, decodeBytes, decodeFirstAlu, sourceForm, Instr.wellFormedUnder]
  | xorReg | xorImm | cmpReg | cmpImm =>
    simp [encodeHigh, encodeLow, decodeBytes, decodeSecondAlu, sourceForm, Instr.wellFormedUnder]
  | notReg | shrReg | rorReg | asrReg | rolReg =>
    simp [encodeHigh, decodeBytes, decodeOneOperand, Instr.wellFormedUnder]
  | jcReg | jcImm | jncReg | jncImm =>
    cases hp : p.jcJncImplemented <;>
      simp [encodeHigh, encodeLow, decodeBytes, decodeJump, carryJumpForm, sourceForm, Instr.wellFormedUnder, hp]
  | jmpReg | jmpImm | jeReg | jeImm | jneReg | jneImm | jaReg | jaImm | jaeReg | jaeImm | jbeReg | jbeImm | jbReg | jbImm =>
    simp [encodeHigh, encodeLow, decodeBytes, decodeJump, sourceForm, Instr.wellFormedUnder]
  | outReg | outImm | inReg =>
    simp [encodeHigh, encodeLow, decodeBytes, decodeIo, sourceForm, Instr.wellFormedUnder]

/-- The canonical word of every instruction decodes to it at the decided parameters. -/
theorem decode_encode (i : Instr) : decode (encode i) = .ok i := by
  rw [decode, decodeOfEncodeIsTheInstruction, if_pos]
  cases i <;> rfl

end Sys2Proof.Machine
end

section
/-!
PROOFS. The unused bits of a word (spec/30_encoding.md R66): the encoder writes 0 there, and the decoder does not read them.
-/

namespace Sys2Proof

/-! ### Masking a word is masking its bytes -/

theorem append_and_append (h l h' l' : Byte) :
    (h ++ l : InstrWord) &&& (h' ++ l' : InstrWord) = (h &&& h') ++ (l &&& l') :=
  BitVec.and_append

/-- Two words agree outside a mask when their bytes agree outside the mask's bytes. -/
theorem bytes_eq_of_and_not_eq {v w m : InstrWord} (h : v &&& ~~~m = w &&& ~~~m) :
    highByte v &&& ~~~highByte m = highByte w &&& ~~~highByte m ∧
      lowByte v &&& ~~~lowByte m = lowByte w &&& ~~~lowByte m := by
  have hbytes : ∀ u : InstrWord, u &&& ~~~m =
      (highByte u &&& ~~~highByte m) ++ (lowByte u &&& ~~~lowByte m) := fun u => by
    rw [← append_and_append, ← BitVec.not_append, append_bytes, append_bytes]
  rw [hbytes, hbytes] at h
  exact ⟨by simpa using congrArg highByte h, by simpa using congrArg lowByte h⟩

theorem srcByte_and_unused (r : Reg) : srcByte r &&& 0xFC = 0 := by cases r <;> rfl

/-! ### A field is the same in two bytes that agree on a mask that holds the field -/

section
variable {a b m : Byte} (h : a &&& m = b &&& m)
include h

theorem extractLsb'_congr_of_and_eq {start len : Nat} (hm : m.extractLsb' start len = BitVec.allOnes len) :
    a.extractLsb' start len = b.extractLsb' start len := by
  have hext := congrArg (BitVec.extractLsb' start len) h
  rwa [BitVec.extractLsb'_and, BitVec.extractLsb'_and, hm, BitVec.and_allOnes, BitVec.and_allOnes] at hext

theorem opcodeField_congr (hm : m.extractLsb' 5 3 = BitVec.allOnes 3) : opcodeField a = opcodeField b :=
  congrArg BitVec.toNat (extractLsb'_congr_of_and_eq h hm)

theorem opField_congr (hm : m.extractLsb' 2 2 = BitVec.allOnes 2) : opField a = opField b :=
  congrArg BitVec.toNat (extractLsb'_congr_of_and_eq h hm)

theorem oneOperandField_congr (hm : m.extractLsb' 2 3 = BitVec.allOnes 3) : oneOperandField a = oneOperandField b :=
  congrArg BitVec.toNat (extractLsb'_congr_of_and_eq h hm)

theorem dregField_congr (hm : m.extractLsb' 0 2 = BitVec.allOnes 2) : dregField a = dregField b :=
  congrArg Reg.ofCode (extractLsb'_congr_of_and_eq h hm)

theorem srcField_congr (hm : m.extractLsb' 0 2 = BitVec.allOnes 2) : srcField a = srcField b :=
  congrArg Reg.ofCode (extractLsb'_congr_of_and_eq h hm)

theorem immediateBit_congr (hm : m.getLsbD 4 = true) : immediateBit a = immediateBit b := by
  have hbit := congrArg (BitVec.getLsbD · 4) h
  simpa only [immediateBit, BitVec.getLsbD_and, hm, Bool.and_true] using hbit

end

end Sys2Proof

namespace Sys2Proof.Machine

/-- A register form has 0 in the six bits above its src field. -/
theorem append_srcByte_and_unused (h : Byte) (r : Reg) : (h ++ srcByte r : InstrWord) &&& 0x00FC = 0 := by
  rw [show (0x00FC : InstrWord) = (0x00 : Byte) ++ (0xFC : Byte) from rfl, append_and_append, srcByte_and_unused,
    show h &&& 0x00 = 0 from BitVec.and_zero]
  rfl

/-- Settles O33: by what the form's row marks unused. -/
theorem canonicalWordHasZeroUnusedBits : Obligations.CanonicalWordHasZeroUnusedBits := by
  intro i
  cases i with
  | notReg r | shrReg r | rorReg r | asrReg r | rolReg r | inReg r => cases r <;> rfl
  | outReg r => cases r <;> rfl
  | outImm b =>
    rw [encode, dontCare, show (0x0300 : InstrWord) = (0x03 : Byte) ++ (0x00 : Byte) from rfl, append_and_append]
    simp [encodeHigh, encodeLow, formatIo]
  | movRegImm | movRegMemImm | movMemRegImm | addImm | subImm | andImm | orImm | xorImm | cmpImm | jmpImm | jeImm | jneImm
  | jaImm | jaeImm | jbeImm | jbImm | jcImm | jncImm => exact BitVec.and_zero
  | _ => exact append_srcByte_and_unused _ _

/-! ### What the decoder reads -/

theorem lowByte_dontCare_outReg (r : Reg) : lowByte (dontCare (.outReg r)) = 0xFC :=
  show lowByte 0x03FC = 0xFC by decide

theorem lowByte_dontCare_outImm (b : Byte) : lowByte (dontCare (.outImm b)) = 0x00 :=
  show lowByte 0x0300 = 0x00 by decide

/-- A source that a register form reads from its src field, and an immediate form from the whole low byte, is the same for two
low bytes that agree outside the form's unused bits. -/
theorem sourceForm_congr_low {hi lo lo' : Byte} {reg : Reg → Instr} {imm : Byte → Instr}
    (hreg : ∀ r, lowByte (dontCare (reg r)) = 0xFC) (himm : ∀ b, lowByte (dontCare (imm b)) = 0x00)
    (h : lo' &&& ~~~lowByte (dontCare (sourceForm hi lo reg imm)) = lo &&& ~~~lowByte (dontCare (sourceForm hi lo reg imm))) :
    sourceForm hi lo' reg imm = sourceForm hi lo reg imm := by
  cases hbit : immediateBit hi with
  | false =>
    simp only [sourceForm, hbit, hreg] at h ⊢
    rw [srcField_congr h rfl]
  | true =>
    simp only [sourceForm, hbit, himm, show ~~~(0x00 : Byte) = BitVec.allOnes 8 from rfl, BitVec.and_allOnes] at h
    rw [h]

/-- The low byte's unused bits are not read. -/
theorem decodeBytes_congr_low {p : Params} {hi lo lo' : Byte} {i : Instr}
    (h : lo' &&& ~~~lowByte (dontCare i) = lo &&& ~~~lowByte (dontCare i)) :
    decodeBytes p hi lo = .ok i → decodeBytes p hi lo' = .ok i := by
  have hsource : ∀ {reg : Reg → Instr} {imm : Byte → Instr}, (∀ r, lowByte (dontCare (reg r)) = 0xFC) →
      (∀ b, lowByte (dontCare (imm b)) = 0x00) → Except.ok (ε := ReservedKind) (sourceForm hi lo reg imm) = .ok i →
      Except.ok (ε := ReservedKind) (sourceForm hi lo' reg imm) = .ok i := by
    rintro reg imm hreg himm ⟨⟩
    rw [sourceForm_congr_low hreg himm h]
  unfold decodeBytes
  split
  · unfold decodeMove
    split
    case h_4 => exact id
    all_goals exact hsource (fun _ => rfl) (fun _ => rfl)
  · unfold decodeFirstAlu
    split <;> exact hsource (fun _ => rfl) (fun _ => rfl)
  · unfold decodeSecondAlu
    split
    case h_3 => exact id
    all_goals exact hsource (fun _ => rfl) (fun _ => rfl)
  · exact id
  · exact id
  · unfold decodeJump carryJumpForm
    split
    case h_10 => exact id
    case h_8 | h_9 =>
      split
      · exact hsource (fun _ => rfl) (fun _ => rfl)
      · exact id
    all_goals exact hsource (fun _ => rfl) (fun _ => rfl)
  · unfold decodeIo
    split
    · exact hsource lowByte_dontCare_outReg lowByte_dontCare_outImm
    · exact id
    · exact id
  · exact id

/-- Only the words of opcode 110 have unused bits in the high byte: dreg of `out`, I/R-bar of `in`. -/
theorem highByte_dontCare_eq_zero {p : Params} {hi lo : Byte} {i : Instr} (h : decodeBytes p hi lo = .ok i)
    (ho : opcodeField hi ≠ 6) : highByte (dontCare i) = 0 := by
  have hsource : ∀ {reg : Reg → Instr} {imm : Byte → Instr}, (∀ r, dontCare (reg r) = 0x00FC) →
      (∀ b, dontCare (imm b) = 0x0000) → highByte (dontCare (sourceForm hi lo reg imm)) = 0 := by
    intro reg imm hreg himm
    unfold sourceForm
    split
    · rw [himm]
      decide
    · rw [hreg]
      decide
  unfold decodeBytes at h
  split at h
  · unfold decodeMove at h
    split at h <;> cases h <;> exact hsource (fun _ => rfl) (fun _ => rfl)
  · unfold decodeFirstAlu at h
    split at h <;> cases h <;> exact hsource (fun _ => rfl) (fun _ => rfl)
  · unfold decodeSecondAlu at h
    split at h <;> cases h <;> exact hsource (fun _ => rfl) (fun _ => rfl)
  · unfold decodeOneOperand at h
    split at h <;> cases h <;> exact (by decide : highByte 0x00FF = 0)
  · cases h
  · unfold decodeJump carryJumpForm at h
    split at h
    case h_8 | h_9 => split at h <;> cases h; exact hsource (fun _ => rfl) (fun _ => rfl)
    all_goals cases h
    all_goals exact hsource (fun _ => rfl) (fun _ => rfl)
  · contradiction
  · cases h

theorem decodeBytes_in (p : Params) (hi lo : Byte) (ho : opcodeField hi = 6) (hop : opField hi = 1) :
    decodeBytes p hi lo = .ok (.inReg (dregField hi)) := by
  simp only [decodeBytes, ho, decodeIo, hop]

/-- `out` reads the opcode, the I/R-bar bit and the IO type of its high byte, `in` the opcode, the IO type and dreg. -/
theorem decodeBytes_io_congr_high {p : Params} {hi hi' lo : Byte} {i : Instr} (ho : opcodeField hi = 6)
    (h : hi' &&& ~~~highByte (dontCare i) = hi &&& ~~~highByte (dontCare i)) (hd : decodeBytes p hi lo = .ok i) :
    decodeBytes p hi' lo = .ok i := by
  simp only [decodeBytes, ho, decodeIo] at hd
  split at hd
  · next hop =>
    have hmask : highByte (dontCare i) = 0x03 := by
      cases hd
      unfold sourceForm
      split <;> simp only [dontCare] <;> decide
    rw [hmask] at h
    rw [decodeBytes_out p hi' lo ((opcodeField_congr h rfl).trans ho) ((opField_congr h rfl).trans hop), ← hd, sourceForm,
      immediateBit_congr h rfl]
    rfl
  · next hop =>
    have hmask : highByte (dontCare i) = 0x10 := by
      cases hd
      exact (by decide : highByte 0x10FF = 0x10)
    rw [hmask] at h
    rw [decodeBytes_in p hi' lo ((opcodeField_congr h rfl).trans ho) ((opField_congr h rfl).trans hop), ← hd,
      dregField_congr h rfl]
  · cases hd

/-- Settles O34: first the high byte's unused bits, then the low byte's. -/
theorem unusedBitsDoNotMatter : Obligations.UnusedBitsDoNotMatter := by
  intro w v i hw hv
  obtain ⟨hhi, hlo⟩ := bytes_eq_of_and_not_eq hv
  refine decodeBytes_congr_low hlo ?_
  by_cases ho : opcodeField (highByte w) = 6
  · exact decodeBytes_io_congr_high ho hhi hw
  · have hmask := highByte_dontCare_eq_zero hw ho
    have heq : highByte v = highByte w := by
      simpa only [hmask, show ~~~(0x00 : Byte) = BitVec.allOnes 8 from rfl, BitVec.and_allOnes] using hhi
    rw [heq]
    exact hw

end Sys2Proof.Machine
end

section
/-!
PROOFS. The opcode map as data (spec/30_encoding.md R68, R74): its rows are disjoint, and the words that no row matches are the
reserved ones.
-/

namespace Sys2Proof.Machine

/-- A word that two rows match gives each row's bits under the other's mask. -/
theorem bits_and_mask_eq {r q : OpcodeRow} {w : InstrWord} (hr : r.matchesWord w = true) (hq : q.matchesWord w = true) :
    r.bits &&& q.mask = q.bits &&& r.mask := by
  rw [OpcodeRow.matchesWord, beq_iff_eq] at hr hq
  rw [← hr, ← hq, BitVec.and_assoc, BitVec.and_comm r.mask, ← BitVec.and_assoc]

theorem opcodeTable_bits_separate :
    ∀ r ∈ opcodeTable, ∀ q ∈ opcodeTable, r.bits &&& q.mask = q.bits &&& r.mask → r = q := by decide

/-- Settles O35: different rows differ in a bit that both masks keep. -/
theorem opcodeRowsAreDisjoint : Obligations.OpcodeRowsAreDisjoint := fun _ r hr q hq hrw hqw =>
  opcodeTable_bits_separate r hr q hq (bits_and_mask_eq hrw hqw)

/-- Whether a word is reserved depends on its high byte alone (R67), so the 256 high bytes tell for all words. -/
theorem decodeBytes_zero_isNone : ∀ hi : Byte,
    (decodeBytes Config.decided hi 0).toOption.isNone = reservedHighByte hi := by decide

/-- The decoder refuses exactly the words of the reserved high bytes (R74). -/
theorem decode_error_iff (w : InstrWord) : (∃ why, decode w = .error why) ↔ reservedHighByte (highByte w) = true := by
  have hlow : (∃ why, decode w = .error why) ↔ ∃ why, decodeBytes Config.decided (highByte w) 0 = .error why :=
    exists_congr (decodeBytes_error_low _ _ _ _)
  rw [hlow, ← decodeBytes_zero_isNone]
  cases decodeBytes Config.decided (highByte w) 0 <;> simp [Except.toOption]

theorem reservedHighByte_eq_all : ∀ hi : Byte,
    reservedHighByte hi = opcodeTable.all fun q => !(hi &&& highByte q.mask == highByte q.bits) := by decide

/-- The opcode map has no row for exactly the words of the reserved high bytes (R68, R74). -/
theorem no_row_matches_iff (w : InstrWord) :
    (∀ r ∈ opcodeTable, r.matchesWord w = false) ↔ reservedHighByte (highByte w) = true := by
  rw [reservedHighByte_eq_all, List.all_eq_true]
  refine forall₂_congr fun r hr => ?_
  obtain ⟨hm, hb⟩ := opcodeTable_low r hr
  rw [← append_bytes w, matchesWord_append hm hb, highByte_append, Bool.not_eq_true']

/-- Settles O36. -/
theorem reservedWordsAreTheListedOnes : Obligations.ReservedWordsAreTheListedOnes :=
  ⟨decode_error_iff, rfl⟩

/-- Settles O31: the step is refused where the decoder refuses, which is where no row matches. -/
theorem stepRefusesExactlyUnlistedWords : Obligations.StepRefusesExactlyUnlistedWords := by
  intro s
  have hrow : (∀ r ∈ opcodeTable, r.matchesWord (s.fetchWord .highFirst) = false) ↔
      ∃ why, decode (s.fetchWord .highFirst) = .error why :=
    (no_row_matches_iff _).trans (decode_error_iff _).symm
  rw [step_eq]
  constructor
  · intro h
    obtain ⟨why, hwhy⟩ := hrow.mp h
    exact ⟨why, by rw [hwhy]⟩
  · rintro ⟨r, hr, hmatch⟩
    cases hd : decode (s.fetchWord .highFirst) with
    | error why =>
      rw [hrow.mpr ⟨why, hd⟩ r hr] at hmatch
      cases hmatch
    | ok i => exact ⟨_, exec_eq_next i s⟩

end Sys2Proof.Machine
end

section
/-!
PROOFS. The comparison (spec/42_compare.md R125 to R127) and the conditions read after it (spec/44_jumps.md R142).
-/

namespace Sys2Proof.Machine

theorem decodeBytes_cmp (p : Params) (hi lo : Byte) (ho : opcodeField hi = 2) (hop : opField hi = 1) :
    decodeBytes p hi lo = .ok (sourceForm hi lo (.cmpReg (dregField hi)) (.cmpImm (dregField hi))) := by
  simp only [decodeBytes, ho, decodeSecondAlu, hop]

theorem exec_cmpReg (rn rm : Reg) (s : State) : exec (.cmpReg rn rm) s = compareWith Config.decided rn (.reg rm) s := rfl

theorem exec_cmpImm (rn : Reg) (i : Byte) (s : State) : exec (.cmpImm rn i) s = compareWith Config.decided rn (.imm i) s := rfl

theorem zeroFlag_eq (a b : Byte) : zeroFlag a b = decide (a = b) := Bool.eq_iff_iff.mpr (by simp [zeroFlag_iff])

theorem carryFlag_eq (a b : Byte) : carryFlag a b = decide (a.toNat < b.toNat) := rfl

/-- What a comparison leaves, the flags read as facts about the operands. -/
theorem compareWith_frame (rn : Reg) (src : Src) (s : State) :
    ∃ t, compareWith Config.decided rn src s = .next t ∧ t.zf = decide (s.reg rn = s.srcVal src) ∧
      t.cf = decide ((s.reg rn).toNat < (s.srcVal src).toNat) ∧ t.sf = (s.reg rn - s.srcVal src).msb ∧
      t.flagDraws = s.flagDraws ∧ SameRegs s t ∧ SameMemory s t ∧ SameIo s t := by
  obtain ⟨t, ht, hzf, hcf, hsf, hdraws, -, hframe⟩ := compareWith_effect rn src s
  rw [zeroFlag_eq] at hzf
  rw [carryFlag_eq] at hcf
  rw [signFlag_eq] at hsf
  exact ⟨t, ht, hzf, hcf, hsf, hdraws, hframe⟩

/-- Settles O12. -/
theorem compareSetsFlags : Obligations.CompareSetsFlags := by
  refine ⟨rowDecodes_register rfl (decodeBytes_cmp _) rfl, rowDecodes_immediate rfl (decodeBytes_cmp _) rfl,
    fun rn rm s => ?_, fun rn i s => ?_⟩
  · rw [exec_cmpReg]
    exact compareWith_frame rn (.reg rm) s
  · rw [exec_cmpImm]
    exact compareWith_frame rn (.imm i) s

/-- After a comparison the flags order the operands as unsigned numbers. -/
theorem compareWith_conditions (rn : Reg) (src : Src) (s : State) :
    ∃ t, compareWith Config.decided rn src s = .next t ∧
      Cond.above.holds t.zf t.cf = decide ((s.srcVal src).toNat < (s.reg rn).toNat) ∧
      Cond.aboveEqual.holds t.zf t.cf = decide ((s.srcVal src).toNat ≤ (s.reg rn).toNat) ∧
      Cond.belowEqual.holds t.zf t.cf = decide ((s.reg rn).toNat ≤ (s.srcVal src).toNat) ∧
      Cond.below.holds t.zf t.cf = decide ((s.reg rn).toNat < (s.srcVal src).toNat) ∧
      Cond.carry.holds t.zf t.cf = Cond.below.holds t.zf t.cf ∧
      Cond.notCarry.holds t.zf t.cf = Cond.aboveEqual.holds t.zf t.cf := by
  obtain ⟨t, ht, hzf, hcf, -⟩ := compareWith_frame rn src s
  refine ⟨t, ht, ?_⟩
  rw [hzf, hcf]
  simp only [← BitVec.toNat_inj]
  rcases Nat.lt_trichotomy (s.reg rn).toNat (s.srcVal src).toNat with h | h | h <;>
    simp [Cond.holds, h, h.le, Nat.not_le.mpr, Nat.not_lt.mpr, Nat.ne_of_lt, Nat.ne_of_gt]

/-- Settles O51: by the order of the operands, which decides both flags. -/
theorem jumpsAfterCompareOrderUnsigned : Obligations.JumpsAfterCompareOrderUnsigned := by
  refine ⟨fun rn rm s => ?_, fun rn i s => ?_⟩
  · rw [exec_cmpReg]
    exact compareWith_conditions rn (.reg rm) s
  · rw [exec_cmpImm]
    exact compareWith_conditions rn (.imm i) s

end Sys2Proof.Machine
end

section
/-!
PROOFS. The one-operand instructions (spec/43_alu_one_operand.md R130 to R135): how they decode, what their operations are in
the library's terms, and what they leave.
-/

namespace Sys2Proof.Machine

/-! ### Decoding opcode 011 (30_encoding.md R71) -/

section
variable (p : Params) (hi lo : Byte) (ho : opcodeField hi = 3)
include ho

theorem decodeBytes_not (hop : oneOperandField hi = 0) : decodeBytes p hi lo = .ok (.notReg (dregField hi)) := by
  simp only [decodeBytes, ho, decodeOneOperand, hop]

theorem decodeBytes_shr (hop : oneOperandField hi = 1) : decodeBytes p hi lo = .ok (.shrReg (dregField hi)) := by
  simp only [decodeBytes, ho, decodeOneOperand, hop]

theorem decodeBytes_ror (hop : oneOperandField hi = 2) : decodeBytes p hi lo = .ok (.rorReg (dregField hi)) := by
  simp only [decodeBytes, ho, decodeOneOperand, hop]

theorem decodeBytes_asr (hop : oneOperandField hi = 3) : decodeBytes p hi lo = .ok (.asrReg (dregField hi)) := by
  simp only [decodeBytes, ho, decodeOneOperand, hop]

theorem decodeBytes_rol (hop : oneOperandField hi = 4) : decodeBytes p hi lo = .ok (.rolReg (dregField hi)) := by
  simp only [decodeBytes, ho, decodeOneOperand, hop]

end

/-- A byte whose masked bits are a row's agrees with the row on the mask. -/
theorem and_eq_and_of_and_eq {a b m : Byte} (h : a &&& m = b) : a &&& m = b &&& m := by
  rw [← h, BitVec.and_assoc, BitVec.and_self]

/-- The row of a one-operand form fixes the opcode and the 3-bit ALU op of its words. -/
theorem rowDecodes_oneOperand {bits : InstrWord} {form : Reg → Instr} (hb : lowByte bits = 0)
    (h : ∀ hi lo, opcodeField hi = opcodeField (highByte bits) → oneOperandField hi = oneOperandField (highByte bits) →
      decodeBytes Config.decided hi lo = .ok (form (dregField hi))) :
    RowDecodes bits 0xFC00 (fun w => form (wordDreg w)) := by
  refine rowDecodes_of_high rfl hb fun hi lo (hrow : hi &&& 0xFC = _) => ?_
  have hmask := and_eq_and_of_and_eq hrow
  rw [wordDreg_append]
  exact h hi lo (opcodeField_congr hmask rfl) (oneOperandField_congr hmask rfl)

/-! ### The operations, in the library's terms -/

theorem shiftRight_eq (v : Byte) : shiftRight v = v >>> 1 := by
  ext i hi
  refine (BitVec.getElem_append hi).trans ?_
  by_cases h : i < 7
  · simp [h, BitVec.getElem_ushiftRight]
  · simp [show i = 7 by omega]

theorem rotateRight_eq (v : Byte) : rotateRight v = v.rotateRight 1 := by
  ext i hi
  refine (BitVec.getElem_append hi).trans ?_
  by_cases h : i < 7
  · simp [h, BitVec.getElem_rotateRight, BitVec.getLsbD_eq_getElem (show 1 + i < 8 by omega)]
  · simp [show i = 7 by omega, BitVec.getElem_rotateRight]

theorem shiftRightArithmetic_eq (v : Byte) : shiftRightArithmetic v = v.sshiftRight 1 := by
  ext i hi
  refine (BitVec.getElem_append hi).trans ?_
  by_cases h : i < 7
  · simp [h, BitVec.getElem_sshiftRight, BitVec.getLsbD_eq_getElem, show 1 + i < 8 by omega]
  · simp [show i = 7 by omega, BitVec.getElem_sshiftRight, BitVec.msb_eq_getLsbD_last]

theorem rotateLeft_eq (v : Byte) : rotateLeft v = v.rotateLeft 1 := by
  ext i hi
  refine (BitVec.getElem_append hi).trans ?_
  by_cases h : i < 1
  · simp [show i = 0 by omega, BitVec.getElem_rotateLeft]
  · simp [h, BitVec.getElem_rotateLeft, BitVec.getLsbD_eq_getElem (show i - 1 < 8 by omega)]

/-- The two rotations undo each other. -/
theorem rotateLeft_rotateRight (v : Byte) : rotateLeft (rotateRight v) = v := by
  rw [rotateLeft_eq, rotateRight_eq]
  ext i hi
  by_cases h : i < 1
  · simp [show i = 0 by omega, BitVec.getElem_rotateLeft, BitVec.getElem_rotateRight]
  · simp [h, BitVec.getElem_rotateLeft, BitVec.getElem_rotateRight, show i - 1 < 7 by omega, show 1 + (i - 1) = i by omega]

theorem rotateRight_rotateLeft (v : Byte) : rotateRight (rotateLeft v) = v := by
  rw [rotateLeft_eq, rotateRight_eq]
  ext i hi
  by_cases h : i < 7
  · simp [h, BitVec.getElem_rotateLeft, BitVec.getElem_rotateRight]
  · simp [show i = 7 by omega, BitVec.getElem_rotateLeft, BitVec.getElem_rotateRight]

/-- `shr` halves the unsigned value, rounding down. -/
theorem toNat_shiftRight (v : Byte) : (shiftRight v).toNat = v.toNat / 2 := by
  rw [shiftRight_eq, BitVec.toNat_ushiftRight, Nat.shiftRight_eq_div_pow, pow_one]

/-- `asr` halves the two's-complement value, rounding toward minus infinity. -/
theorem toInt_shiftRightArithmetic (v : Byte) : (shiftRightArithmetic v).toInt = v.toInt.fdiv 2 := by
  rw [shiftRightArithmetic_eq, BitVec.toInt_sshiftRight, Int.shiftRight_eq_div_pow, pow_one,
    Int.fdiv_eq_ediv_of_nonneg _ (by decide)]
  rfl

/-! ### What each form runs -/

theorem exec_notReg (r : Reg) (s : State) :
    exec (.notReg r) s = (s.setReg r (~~~s.reg r)).advance Config.decided := rfl

theorem exec_shrReg (r : Reg) (s : State) :
    exec (.shrReg r) s = (s.setReg r (shiftRight (s.reg r))).advance Config.decided := rfl

theorem exec_rorReg (r : Reg) (s : State) :
    exec (.rorReg r) s = (s.setReg r (rotateRight (s.reg r))).advance Config.decided := rfl

theorem exec_asrReg (r : Reg) (s : State) :
    exec (.asrReg r) s = (s.setReg r (shiftRightArithmetic (s.reg r))).advance Config.decided := rfl

theorem exec_rolReg (r : Reg) (s : State) :
    exec (.rolReg r) s = (s.setReg r (rotateLeft (s.reg r))).advance Config.decided := rfl

/-! ### The obligations -/

/-- Settles O13. -/
theorem notInvertsEveryBit : Obligations.NotInvertsEveryBit := by
  refine ⟨rowDecodes_oneOperand rfl (decodeBytes_not _), fun r s => ?_⟩
  rw [exec_notReg]
  exact setReg_advance_frame r (~~~s.reg r) s

/-- Settles O14: the zero joined to the upper seven bits is the library's unsigned shift. -/
theorem shrShiftsInZero : Obligations.ShrShiftsInZero := by
  refine ⟨rowDecodes_oneOperand rfl (decodeBytes_shr _), fun r s => ?_⟩
  rw [exec_shrReg, shiftRight_eq]
  exact setReg_advance_frame r (s.reg r >>> 1) s

/-- Settles O15: bit 0 joined to the upper seven bits is the library's rotation. -/
theorem rorRotatesRightByOne : Obligations.RorRotatesRightByOne := by
  refine ⟨rowDecodes_oneOperand rfl (decodeBytes_ror _), fun r s => ?_⟩
  rw [exec_rorReg, rotateRight_eq]
  exact setReg_advance_frame r ((s.reg r).rotateRight 1) s

/-- Settles O16: bit 7 joined to the upper seven bits is the library's signed shift. -/
theorem asrKeepsSignBit : Obligations.AsrKeepsSignBit := by
  refine ⟨rowDecodes_oneOperand rfl (decodeBytes_asr _), fun r s => ?_⟩
  rw [exec_asrReg, shiftRightArithmetic_eq]
  exact setReg_advance_frame r ((s.reg r).sshiftRight 1) s

/-- Settles O17: the lower seven bits joined to bit 7 are the library's rotation. -/
theorem rolRotatesLeftByOne : Obligations.RolRotatesLeftByOne := by
  refine ⟨rowDecodes_oneOperand rfl (decodeBytes_rol _), fun r s => ?_⟩
  rw [exec_rolReg, rotateLeft_eq]
  exact setReg_advance_frame r ((s.reg r).rotateLeft 1) s

/-- What an operation that ends by writing one register leaves in that register. -/
theorem setReg_advance_reg (r : Reg) (v : Byte) (s : State) :
    ∃ t, (s.setReg r v).advance Config.decided = .next t ∧ t.reg r = v := by
  obtain ⟨t, ht, ⟨hreg, -⟩, -⟩ := setReg_advance_frame r v s
  exact ⟨t, ht, hreg⟩

/-- Settles O54. -/
theorem rightShiftsHalve : Obligations.RightShiftsHalve := by
  intro r s
  constructor
  · obtain ⟨t, ht, hreg⟩ := setReg_advance_reg r (shiftRight (s.reg r)) s
    exact ⟨t, ht, by rw [hreg, toNat_shiftRight]⟩
  · obtain ⟨t, ht, hreg⟩ := setReg_advance_reg r (shiftRightArithmetic (s.reg r)) s
    exact ⟨t, ht, by rw [hreg, toInt_shiftRightArithmetic]⟩

/-- Two operations on one register that undo each other leave every register, flag and cell as they were. -/
theorem setReg_advance_undo {f g : Byte → Byte} (h : ∀ v, g (f v) = v) (r : Reg) (s : State) :
    ∃ t u, (s.setReg r (f (s.reg r))).advance Config.decided = .next t ∧
      (t.setReg r (g (t.reg r))).advance Config.decided = .next u ∧ SameRegs s u ∧ SameFlags s u ∧ SameMemory s u := by
  refine ⟨_, _, rfl, rfl, fun q => ?_, by simp [SameFlags], fun a => by simp⟩
  by_cases hq : q = r
  · simp [hq, h]
  · simp [hq]

/-- Settles O55. -/
theorem rotationsUndoEachOther : Obligations.RotationsUndoEachOther := fun r s =>
  ⟨setReg_advance_undo rotateLeft_rotateRight r s, setReg_advance_undo rotateRight_rotateLeft r s⟩

end Sys2Proof.Machine
end

section
/-!
PROOFS. The jumps whose conditions are the spec's own choices (spec/44_jumps.md R152 to R155, R158 to R161), and `jc` and `jnc`
where JC_JNC_IMPLEMENTED is false.
-/

namespace Sys2Proof.Machine

theorem Cond.holds_aboveEqual (zf cf : Bool) : Cond.aboveEqual.holds zf cf = true ↔ zf = true ∨ cf = false := by
  simp [Cond.holds]

theorem Cond.holds_belowEqual (zf cf : Bool) : Cond.belowEqual.holds zf cf = true ↔ zf = true ∨ cf = true := by
  simp [Cond.holds]

theorem Cond.holds_carry (zf cf : Bool) : Cond.carry.holds zf cf = true ↔ cf = true := Iff.rfl

theorem Cond.holds_notCarry (zf cf : Bool) : Cond.notCarry.holds zf cf = true ↔ cf = false := by
  simp [Cond.holds]

/-- Settles O22: the effect is that of `jumpIf` at the condition `aboveEqual`. -/
theorem jaeJumpsWhenNotBelow : Obligations.JaeJumpsWhenNotBelow :=
  ⟨rowDecodes_jumpRegister rfl fun _ => rfl, rowDecodes_jumpImmediate rfl fun _ => rfl,
    fun rn s => exec_jump_effect (src := .reg rn) rfl (Cond.holds_aboveEqual s.zf s.cf),
    fun i s => exec_jump_effect (src := .imm i) rfl (Cond.holds_aboveEqual s.zf s.cf)⟩

/-- Settles O23: the effect is that of `jumpIf` at the condition `belowEqual`. -/
theorem jbeJumpsWhenNotAbove : Obligations.JbeJumpsWhenNotAbove :=
  ⟨rowDecodes_jumpRegister rfl fun _ => rfl, rowDecodes_jumpImmediate rfl fun _ => rfl,
    fun rn s => exec_jump_effect (src := .reg rn) rfl (Cond.holds_belowEqual s.zf s.cf),
    fun i s => exec_jump_effect (src := .imm i) rfl (Cond.holds_belowEqual s.zf s.cf)⟩

/-- Settles O25: the effect is that of `jumpIf` at the condition `carry`. -/
theorem jcJumpsWhenCarrySet : Obligations.JcJumpsWhenCarrySet :=
  ⟨rowDecodes_jumpRegister rfl fun _ => rfl, rowDecodes_jumpImmediate rfl fun _ => rfl,
    fun rn s => exec_jump_effect (src := .reg rn) rfl (Cond.holds_carry s.zf s.cf),
    fun i s => exec_jump_effect (src := .imm i) rfl (Cond.holds_carry s.zf s.cf)⟩

/-- Settles O26: the effect is that of `jumpIf` at the condition `notCarry`. -/
theorem jncJumpsWhenCarryClear : Obligations.JncJumpsWhenCarryClear :=
  ⟨rowDecodes_jumpRegister rfl fun _ => rfl, rowDecodes_jumpImmediate rfl fun _ => rfl,
    fun rn s => exec_jump_effect (src := .reg rn) rfl (Cond.holds_notCarry s.zf s.cf),
    fun i s => exec_jump_effect (src := .imm i) rfl (Cond.holds_notCarry s.zf s.cf)⟩

/-- Settles O50: the four rows of the table, each computed. -/
theorem jumpConditionTruthTable : Obligations.JumpConditionTruthTable := by
  refine ⟨?_, ?_, ?_, ?_⟩ <;> rfl

/-! ### JC_JNC_IMPLEMENTED (44_jumps.md R142) -/

/-- The high bytes of `jc` and `jnc` are those of opcode 101 with jump type 0100 or 1100. -/
theorem mem_carryJumps_iff : ∀ hi : Byte, hi ∈ [0xA4#8, 0xB4#8, 0xAC#8, 0xBC#8] ↔
    opcodeField hi = 5 ∧ (jumpTypeField hi = 4 ∨ jumpTypeField hi = 12) := by decide

/-- Where `jc` and `jnc` are not implemented, their words are reserved. -/
theorem decodeBytes_carryJump {p : Params} (hp : p.jcJncImplemented = false) {hi : Byte} (lo : Byte)
    (h : hi ∈ [0xA4#8, 0xB4#8, 0xAC#8, 0xBC#8]) : decodeBytes p hi lo = .error .carryJump := by
  obtain ⟨ho, hj | hj⟩ := (mem_carryJumps_iff hi).mp h <;>
    simp [decodeBytes, ho, decodeJump, hj, carryJumpForm, hp]

/-- The decoder reads its parameters on the words of `jc` and `jnc` only. -/
theorem decodeBytes_of_not_carryJump (p q : Params) {hi : Byte} (lo : Byte)
    (h : hi ∉ [0xA4#8, 0xB4#8, 0xAC#8, 0xBC#8]) : decodeBytes p hi lo = decodeBytes q hi lo := by
  rw [mem_carryJumps_iff] at h
  unfold decodeBytes
  split
  case h_6 ho =>
    unfold decodeJump
    split
    case h_8 hj => exact absurd ⟨ho, .inl hj⟩ h
    case h_9 hj => exact absurd ⟨ho, .inr hj⟩ h
    all_goals rfl
  all_goals rfl

/-- Settles O52. -/
theorem carryJumpsReservedWhenNotImplemented : Obligations.CarryJumpsReservedWhenNotImplemented := by
  intro p hp
  constructor
  · intro s hfull htreat hmem
    have hdecode : decodeWith p (s.fetchWord p.instrByteOrder) = .error .carryJump := decodeBytes_carryJump hp _ hmem
    simp only [stepWith, stepBy, fetch_fullGeometry hfull, hdecode, reservedOutcome, htreat]
  · intro w hw
    exact decodeBytes_of_not_carryJump p Config.decided (lowByte w) hw

end Sys2Proof.Machine
end

section
/-!
PROOFS. The input instruction (spec/45_external_interface.md R173): its row, whose mask 0xEC00 leaves the I/R-bar bit out, and
what it leaves.
-/

namespace Sys2Proof.Machine

theorem exec_inReg (rn : Reg) (s : State) :
    exec (.inReg rn) s = (s.takeInput.setReg rn s.inputValue).advance Config.decided := rfl

theorem rowDecodes_in : RowDecodes 0xC400 0xEC00 (fun w => .inReg (wordDreg w)) := by
  refine rowDecodes_of_high rfl rfl fun hi lo (hrow : hi &&& 0xEC = 0xC4) => ?_
  have hmask : hi &&& 0xEC = 0xC4 &&& 0xEC := and_eq_and_of_and_eq hrow
  rw [wordDreg_append]
  exact decodeBytes_in _ hi lo (opcodeField_congr hmask rfl) (opField_congr hmask rfl)

/-- Settles O29: the draw is taken first, and what then writes the register changes nothing else. -/
theorem inTakesOneDraw : Obligations.InTakesOneDraw := by
  refine ⟨rowDecodes_in, fun rn s => ?_⟩
  rw [exec_inReg]
  obtain ⟨t, ht, ⟨hreg, hother⟩, hflags, hmem, hport, htrace, htaken⟩ :=
    setReg_advance_frame rn s.inputValue s.takeInput
  exact ⟨t, ht, ⟨hreg, fun q hq => by rw [hother q hq, State.takeInput_reg]⟩, htrace, htaken, hport, hflags, hmem⟩

end Sys2Proof.Machine
end

section
/-!
PROOFS. The step, memory and reset (spec/00_scope.md R10, spec/20_memory.md R42 to R54, spec/60_exceptions.md R187,
spec/10_state.md R32).
-/

namespace Sys2Proof.Machine

/-- Settles O30: the two bytes at `pc` are the word that the step fetches. -/
theorem stepRunsDecodedInstruction : Obligations.StepRunsDecodedInstruction := by
  intro s i h
  have hfetch : decode (s.fetchWord .highFirst) = .ok i := h
  rw [step_eq, hfetch]

theorem fetchWord_highFirst (s : State) : s.fetchWord .highFirst = s.memRead s.pc ++ s.memRead (s.pc + 1) := rfl

/-- Settles O47: the second address wraps as the 8-bit sum does. -/
theorem fetchIsHighByteFirstAndWraps : Obligations.FetchIsHighByteFirstAndWraps := by
  intro s
  have hlow : lowByte (s.fetchWord .highFirst) = s.memRead (s.pc + 1) := lowByte_append _ _
  refine ⟨highByte_append _ _, hlow, fun hpc => ?_⟩
  rw [hlow, hpc]
  rfl

/-- Settles O48. -/
theorem memoryIsPlainStorage : Obligations.MemoryIsPlainStorage := State.memRead_memWrite

/-- Settles O46: the store has changed the memory, and nothing but `pc` besides, before the next fetch reads it. -/
theorem storeIsSeenByTheNextFetch : Obligations.StoreIsSeenByTheNextFetch := by
  intro s i a v hdecode hstore
  rw [stepRunsDecodedInstruction s i hdecode, exec_eq_next]
  refine ⟨_, rfl, ?_⟩
  rw [storedCell_eq] at hstore
  cases ho : Operation.of i with
  | store rn src =>
    rw [ho] at hstore
    cases hstore
    simp only [Operation.effect, Operation.target, fetchWord_highFirst, State.setPc_pc, State.setPc_memRead,
      State.memRead_memWrite, BitVec.add_assoc]
    simp only [@eq_comm _ (s.reg rn)]
    rfl
  | _ => simp [ho, Operation.storedCell] at hstore

/-! ### Final states (60_exceptions.md R187) -/

/-- Jumping to where the pointer is leaves the state as it is. -/
theorem exec_jmpImm_self (s : State) : exec (.jmpImm s.pc) s = .next s := rfl

theorem decode_jmpImm (i : Byte) : decode ((0xB0 : Byte) ++ i) = .ok (.jmpImm i) := decode_encode (.jmpImm i)

/-- A step in a final state answers that same state. -/
theorem step_of_isFinal {s : State} (h : s.isFinal) : step s = .next s := by
  obtain ⟨hhigh, hlow⟩ := h
  rw [stepRunsDecodedInstruction s (.jmpImm s.pc) (by rw [hhigh, hlow, decode_jmpImm]), exec_jmpImm_self]

/-- Settles O45, by induction on the number of steps. -/
theorem finalStateNeverChanges : Obligations.FinalStateNeverChanges := by
  intro s k h
  have hstep : core.step s = .next s := step_of_isFinal h
  induction k with
  | zero => rfl
  | succ k ih => simpa only [Host.Core.run, hstep] using ih

/-- Settles O53: each part is a field of the reset state. -/
theorem resetStartsAtZeroWithEmptyTrace : Obligations.ResetStartsAtZeroWithEmptyTrace :=
  ⟨rfl, rfl, fun _ => rfl, rfl, fun _ => rfl⟩

/-! ### The idioms (30_encoding.md R82) -/

/-- Writing back what a register holds changes nothing. -/
theorem State.setReg_reg_eq_self (s : State) (r : Reg) : s.setReg r (s.reg r) = s := by cases r <;> rfl

theorem add_self_eq_shiftLeft (v : Byte) : v + v = v <<< 1 :=
  BitVec.eq_of_toNat_eq (by simp [Nat.shiftLeft_eq, Nat.mul_two])

/-- Settles O56. -/
theorem idiomsHaveTheirEffects : Obligations.IdiomsHaveTheirEffects := by
  refine ⟨⟨rfl, fun s => ?_⟩, fun r s => ?_, fun r s => ?_, fun r s => ?_, fun r s => ?_, exec_jmpImm_self,
    fun rn rm a s hne => ?_⟩
  · rw [exec_movRegReg, State.setReg_reg_eq_self, State.advance_decided]
  · obtain ⟨t, ht, hreg⟩ := setReg_advance_reg r (s.reg r + s.reg r) s
    exact ⟨t, ht, hreg.trans (add_self_eq_shiftLeft _)⟩
  · obtain ⟨t, ht, hreg⟩ := setReg_advance_reg r (s.reg r ^^^ s.reg r) s
    exact ⟨t, ht, hreg.trans BitVec.xor_self⟩
  · exact setReg_advance_reg r 0 s
  · obtain ⟨t, ht, hreg⟩ := setReg_advance_reg r (~~~s.reg r) s
    obtain ⟨u, hu, hreg'⟩ := setReg_advance_reg r (t.reg r + 1) t
    exact ⟨t, u, ht, hu, by rw [hreg', hreg, BitVec.neg_eq_not_add]; rfl⟩
  · obtain ⟨t, ht, ⟨hrn, hother⟩, -, hmem, -⟩ := setReg_advance_frame rn a s
    obtain ⟨u, hu, ⟨hcell, hcells⟩, -⟩ := moveToMem_frame rn (t.reg rm) t
    rw [hrn] at hcell hcells
    refine ⟨t, u, ht, hu, ?_, fun b hb => (hcells b hb).trans (hmem b)⟩
    rw [hcell, hother rm hne.symm]

end Sys2Proof.Machine
end

section
/-!
PROOFS. The step under other parameters (spec/00_scope.md R5; log 10, 11, 21): what of an operation depends on FLAGS_WRITERS and
PC_STEP, and what of the decoder on JC_JNC_IMPLEMENTED.
-/

namespace Sys2Proof.Machine

/-- FLAGS_WRITERS decides only whether the flags are a draw after an ALU instruction other than `cmp` (D6). -/
theorem Operation.effect_eq (p : Params) (s : State) (o : Operation) :
    o.effect p s = if p.flagsWriters = .everyAlu ∧ o.isOtherAlu = true then (o.effect Config.decided s).drawFlags
      else o.effect Config.decided s := by
  cases o with
  | alu op rn src => cases hw : p.flagsWriters <;> simp [effect, isOtherAlu, State.aluFlags, hw, Config.decided]
  | _ => simp [effect, isOtherAlu]

/-- A word that is an instruction under some parameters is that instruction under the decided ones. -/
theorem decode_of_decodeWith {p : Params} {w : InstrWord} {i : Instr} (h : decodeWith p w = .ok i) : decode w = .ok i := by
  by_cases hmem : highByte w ∈ [0xA4#8, 0xB4#8, 0xAC#8, 0xBC#8]
  · cases hp : p.jcJncImplemented with
    | false => cases (decodeBytes_carryJump hp (lowByte w) hmem).symm.trans h
    | true =>
      obtain ⟨ho, hj | hj⟩ := (mem_carryJumps_iff _).mp hmem <;>
        simpa [decode, decodeWith, decodeBytes, ho, decodeJump, hj, carryJumpForm, hp, Config.decided] using h
  · exact (decodeBytes_of_not_carryJump Config.decided p (lowByte w) hmem).trans h

/-- Settles O59: a step that the parameters do not refuse runs the same instruction to the same effect and the same target. -/
theorem narrowerParametersOnlyRefuse : Obligations.NarrowerParametersOnlyRefuse := by
  intro p s t hpc hflags horder htreat hstep
  obtain ⟨w, hw, ⟨i, hi, hrun⟩ | ⟨why, -, hres⟩⟩ := stepBy_next_inv hstep
  · rw [fetch_ok_inv hw, horder] at hi
    rw [execUnder_eq_run] at hrun
    rw [step_eq, decode_of_decodeWith hi, Operation.run_next_inv hrun, Operation.effect_eq, hflags, if_neg (by simp),
      Operation.target_eq, hpc]
    simp only [exec_eq_next, Operation.target_eq]
    rfl
  · simp [reservedOutcome, htreat] at hres

/-- Settles O60. -/
theorem stepFollowsTheParameters : Obligations.StepFollowsTheParameters := by
  intro p s hfull
  constructor
  · intro i hi
    refine ⟨((Operation.of i).effect p s).setPc ((Operation.of i).target p s), _, ?_, exec_eq_next i s, ?_⟩
    · simp only [stepWith, stepBy, fetch_fullGeometry hfull, hi, execUnder_eq_run, Operation.run_fullGeometry hfull]
    · have htarget := (Operation.of i).target_eq p s
      rw [← jumpOf_eq] at htarget
      have hdraws : ((Operation.of i).effect Config.decided s).flagDraws = s.flagDraws := by
        cases Operation.of i <;> simp [Operation.effect]
      rw [Operation.effect_eq p, isOtherAlu_eq]
      split
      · exact ⟨fun r => by simp, fun a => by simp, by simp [SameIo], htarget, by simp [hdraws]⟩
      · exact ⟨fun r => by simp, fun a => by simp, by simp [SameIo], htarget, by simp [SameFlags]⟩
  · intro why hwhy
    have hstep : stepWith p s = reservedOutcome p why (s.fetchWord p.instrByteOrder) s := by
      simp only [stepWith, stepBy, fetch_fullGeometry hfull, hwhy]
    rw [hstep]
    cases htreat : p.reservedTreatment with
    | refuse => simp only [reservedOutcome, htreat]
    | noOperation => simp only [reservedOutcome, htreat, advance_fullGeometry hfull]
    | halt => simp only [reservedOutcome, htreat]

end Sys2Proof.Machine
end

section
/-!
PROOFS. The assembler and the disassembler (spec/30_encoding.md R78 to R83): each operand shape is accepted as what it is
disassembled to.
-/

namespace Sys2Proof.Machine

/-! ### Operands and operand shapes (R79, R80) -/

@[simp] theorem immediate_toNat (i : Byte) : immediate i.toNat = some i := by
  rw [immediate, if_pos i.isLt, BitVec.ofNat_toNat, BitVec.setWidth_eq]

/-- A numeral that fits 8 bits is the value of the immediate it assembles to. -/
theorem eq_toNat_of_immediate {n : Nat} {i : Byte} (h : immediate n = some i) : n = i.toNat := by
  unfold immediate at h
  split at h
  · next hlt =>
    cases h
    exact (BitVec.toNat_ofNat n 8 ▸ Nat.mod_eq_of_lt hlt).symm
  · cases h

/-- An operand that is a numeral assembles to the form with that immediate. -/
theorem immediate_map_inv {n : Nat} {f : Byte → Instr} {i : Instr} (h : (immediate n).map f = some i) :
    ∃ b : Byte, n = b.toNat ∧ i = f b := by
  obtain ⟨b, hb, rfl⟩ := Option.map_eq_some_iff.mp h
  exact ⟨b, eq_toNat_of_immediate hb, rfl⟩

section
variable {reg₂ : Reg → Reg → Instr} {imm₂ : Reg → Byte → Instr} {reg : Reg → Instr} {imm : Byte → Instr}
  {ops : List Operand} {i : Instr}

/-- The operand shapes of a two-operand instruction. -/
theorem assembleTwo_inv (h : assembleTwo reg₂ imm₂ ops = some i) :
    (∃ rn rm, ops = [.reg rn, .reg rm] ∧ i = reg₂ rn rm) ∨ ∃ rn, ∃ b : Byte, ops = [.reg rn, .num b.toNat] ∧ i = imm₂ rn b := by
  unfold assembleTwo at h
  split at h
  · cases h
    exact .inl ⟨_, _, rfl, rfl⟩
  · obtain ⟨b, rfl, rfl⟩ := immediate_map_inv h
    exact .inr ⟨_, b, rfl, rfl⟩
  · cases h

/-- The operand shape of a one-register instruction. -/
theorem assembleReg_inv (h : assembleReg reg ops = some i) : ∃ r, ops = [.reg r] ∧ i = reg r := by
  unfold assembleReg at h
  split at h
  · cases h
    exact ⟨_, rfl, rfl⟩
  · cases h

/-- The operand shapes of a jump and of `out`. -/
theorem assembleSrc_inv (h : assembleSrc reg imm ops = some i) :
    (∃ r, ops = [.reg r] ∧ i = reg r) ∨ ∃ b : Byte, ops = [.num b.toNat] ∧ i = imm b := by
  unfold assembleSrc at h
  split at h
  · cases h
    exact .inl ⟨_, rfl, rfl⟩
  · obtain ⟨b, rfl, rfl⟩ := immediate_map_inv h
    exact .inr ⟨b, rfl, rfl⟩
  · cases h

/-- A `mov` that assembles has the operands that its instruction is disassembled to. -/
theorem assembleMov_inv (h : assembleMov ops = some i) : disassemble i = ⟨.mov, ops⟩ := by
  unfold assembleMov at h
  split at h
  case h_1 | h_3 | h_5 =>
    cases h
    rfl
  case h_2 | h_4 | h_6 =>
    obtain ⟨b, rfl, rfl⟩ := immediate_map_inv h
    rfl
  case h_7 => cases h

end

/-! ### The obligations -/

/-- The statement of every instruction has a shape that its mnemonic takes. -/
theorem assemble_disassemble (i : Instr) : assemble (disassemble i) = some i := by
  cases i with
  | movRegReg | movRegImm | movRegMemReg | movRegMemImm | movMemRegReg | movMemRegImm =>
    simp [disassemble, assemble, assembleMov]
  | addReg | addImm | subReg | subImm | andReg | andImm | orReg | orImm | xorReg | xorImm | cmpReg | cmpImm =>
    simp [disassemble, assemble, assembleTwo]
  | notReg | shrReg | rorReg | asrReg | rolReg | inReg => rfl
  | _ => simp [disassemble, assemble, assembleSrc]

/-- Settles O57: a word that decodes is disassembled to the statement of its instruction. -/
theorem assemblingADisassemblyGivesItBack : Obligations.AssemblingADisassemblyGivesItBack := by
  refine ⟨assemble_disassemble, fun w i h => ?_⟩
  rw [disassembleWord, h]
  exact assemble_disassemble i

/-- Settles O58, by the operand shapes that the mnemonic takes. -/
theorem assemblerAcceptsListedShapesOnly : Obligations.AssemblerAcceptsListedShapesOnly := by
  rintro ⟨m, ops⟩ i h
  cases m with
  | mov => exact assembleMov_inv h
  | add | sub | and | or | xor | cmp =>
    obtain ⟨rn, rm, rfl, rfl⟩ | ⟨rn, b, rfl, rfl⟩ := assembleTwo_inv h <;> rfl
  | not | shr | ror | asr | rol | inp =>
    obtain ⟨r, rfl, rfl⟩ := assembleReg_inv h
    rfl
  | jmp | je | jz | jne | jnz | ja | jae | jbe | jb | jc | jnc | out =>
    obtain ⟨r, rfl, rfl⟩ | ⟨b, rfl, rfl⟩ := assembleSrc_inv h <;> rfl

end Sys2Proof.Machine
end
